-- ==== Sys2Proof/Word.lean ====
section
/-! DEFINITION. Word.lean: the bit-vector types of the hardware (00_scope.md R13, R17, R18). -/

namespace Sys2Proof

/-- A byte, the smallest addressable unit (20_memory.md R99). -/
abbrev Byte := BitVec 8

/-- A 32-bit word: an instruction word, or the operand of a "W" instruction (00_scope.md R17, R240). -/
abbrev Word32 := BitVec 32

/-- A register, program counter, CSR or address value: 64 bits (00_scope.md R18). -/
abbrev Word := BitVec 64

/-- A 5-bit index of a general register (30_encoding.md R144). -/
abbrev RegIdx := BitVec 5

/-- A 12-bit index of a control and status register (10_state.md R49). -/
abbrev CsrIdx := BitVec 12

end Sys2Proof
end

