-- ==== Sys2Proof/Config.lean ====
section
/-! DEFINITION. Config.lean: what the construction of an instance fixes (00_scope.md R15, R16), the numbers the spec
supplies for the six functional CSRs, and the four devices of the region table. The record `Config` is held in `State`
(log entry 1), so that no base address is wired into the model (92_eei_decisions.md D22). -/

namespace Sys2Proof

/-! ## The construction record (00_scope.md R16, 20_memory.md R93) -/

/-- `ROM_SIZE`, the bytes of the BootRom region: the hardware's, not a parameter (20_memory.md R93, D22; log entry 2). -/
def romSize : Nat := 0xF000

/-- `UART_SIZE`, the bytes of the ConsoleSink region: the hardware's (20_memory.md R93, D22; log entry 2). -/
def uartSize : Nat := 0x100

/-- `CLINT_SIZE`, the bytes of the TimerController region: the hardware's (20_memory.md R93, D22; log entry 2). -/
def clintSize : Nat := 0x10000

/-- The open construction-time parameters of 00_scope.md R16 (20_memory.md R93, 92_eei_decisions.md D22): the four bases and
`DRAM_SIZE`, a count of bytes. The two images of R16 are the loader's input (Machine/Fetch.lean), not fields here. -/
structure Config where
  /-- `DTB_START`, the base of the BootRom region. -/
  dtbStart : Word
  /-- `UART_START`, the base of the ConsoleSink region. -/
  uartStart : Word
  /-- `CLINT_START`, the base of the TimerController region. -/
  clintStart : Word
  /-- `DRAM_START`, the base of the MainMemory region. -/
  dramStart : Word
  /-- `DRAM_SIZE`, the size of the MainMemory region. -/
  dramSize : Nat
  deriving DecidableEq, Repr

/-- The example configuration TESTCFG of 00_scope.md R16: the configuration of `State.reset` (log entry 1, DESIGN CHOICE). -/
def testCfg : Config where
  dtbStart := 0x1000#64
  uartStart := 0x10000000#64
  clintStart := 0x02000000#64
  dramStart := 0x80000000#64
  dramSize := 0x04000000

/-- The four devices behind the dispatcher (20_memory.md R93, 60_exceptions.md R451). -/
inductive Device where
  | bootRom
  | consoleSink
  | timerController
  | mainMemory
  deriving DecidableEq, Repr

/-- A region: the half-open interval `[start, start + size)` bound to one device (20_memory.md R92). -/
structure Region where
  start : Word
  size : Nat
  device : Device
  deriving DecidableEq, Repr

/-! ## The CSR numbers with a hardware function (00_scope.md R15, 10_state.md R52; log entry 5) -/

def Csr.mstatus : CsrIdx := 0x300#12
def Csr.misa : CsrIdx := 0x301#12
def Csr.mtvec : CsrIdx := 0x305#12
def Csr.mepc : CsrIdx := 0x341#12
def Csr.mcause : CsrIdx := 0x342#12
def Csr.mtval : CsrIdx := 0x343#12

/-- The value of `misa` after construction: MXL = 2 in bits 63:62 and letter I in bit 8 (10_state.md R56; log entry 4). -/
def misaReset : Word := 0x8000000000000100#64

/-- The number of CSRs (10_state.md R49). -/
def csrCount : Nat := 4096

/-- What a byte of MainMemory or BootRom that nothing has written reads as (10_state.md R70; log entry 6). -/
def unwrittenByte : Byte := 0#8

/-- What a CSR holds until something writes it, `misa` apart (10_state.md R70; log entry 3). -/
def unwrittenCsr : Word := 0#64

end Sys2Proof
end

