-- ==== Sys2Proof/Machine/State.lean ====
section
/-! DEFINITION. Machine/State.lean: everything the spec gives the machine (00_scope.md R31, 10_state.md), as plain data, and the
state after construction and loading (10_state.md R70). -/

namespace Sys2Proof.Machine

/-- The privilege mode (10_state.md R60); Debug is reserved and never taken (K16). -/
inductive Mode where
  | user
  | supervisor
  | machine
  deriving DecidableEq, Repr

/-- Why an illegal instruction is illegal: the labels of 60_exceptions.md R424 that IllegalInstruction carries. -/
inductive IllegalLabel where
  /-- the fetch length test (30_encoding.md R141) -/
  | compressed
  /-- WFI (47_system.md R362) -/
  | noInterruptSource
  /-- MULHSU (41_op_muldiv.md R227) -/
  | unimplementedMulhsu
  /-- LR.W, LR.D, SC.W, SC.D (48_amo.md R400) -/
  | unimplementedLrSc
  /-- MRET with MPP = 10 (47_system.md R361) -/
  | mretReservedMpp
  /-- every other case (30_encoding.md R175), AMOSWAP included (48_amo.md R401) -/
  | illegalInstruction
  deriving DecidableEq, Repr

/-- The nine exceptions (60_exceptions.md R420). Each is taken by `trapEntry`; none stops the machine. -/
inductive Exc where
  | illegalInstruction (label : IllegalLabel)
  | loadAddressMisaligned
  | loadAccessFault
  | storeAddressMisaligned
  | storeAccessFault
  | environmentCallFromUser
  | environmentCallFromSupervisor
  | environmentCallFromMachine
  | hardwareError
  deriving DecidableEq, Repr

/-- The DIAG output of one step (00_scope.md R12); code and label of the exception are `Exc.code` and `Exc.label`. -/
inductive Report where
  | retired
  | trapped (e : Exc)
  deriving DecidableEq, Repr

/-- The bytes of a storage device: (device offset, byte) pairs in canonical form (`Memory.wf`): offsets strictly rising, no
entry equal to `unwrittenByte`, which an offset that is not listed reads as (20_memory.md R94, R101, R102; log entry 13). -/
abbrev Memory := List Host.Cell

/-- The CSR file: (number, value) pairs in canonical form (`CsrFile.wf`): numbers strictly rising, no entry equal to
`unwrittenCsr`, which a number that is not listed reads as (10_state.md R49, R50; log entry 18). -/
abbrev CsrFile := List (Nat × Word)

/-- Reasons for which the machine stops. It has no constructor: `Step` always succeeds (00_scope.md R10), every exception is
taken as a trap (60_exceptions.md R433) and a fault loop is a fixed point, not a stop (R436). Nothing raises it, which is
safe (log entry 11). -/
inductive Fault where
  deriving DecidableEq, Repr

/-- Reasons for which the model gives an instruction no meaning. -/
inductive Refusal where
  /-- An instruction without a meaning in this model; only an arm of `exec` may raise it, and no arm does. Safe. -/
  | notModelled (mnemonic : String)
  deriving DecidableEq, Repr

/-- The state of the block (00_scope.md R31), the construction record it was built from (R16), the contents of BootRom
(10_state.md R64) and the last DIAG report (00_scope.md R12). -/
structure State where
  /-- the construction record; no step changes it (20_memory.md R92; log entry 1) -/
  cfg : Config
  /-- `x1` to `x31`, `xi` at index `i - 1`; `x0` has no storage (10_state.md R40, R41) -/
  regs : Vector Word 31
  /-- the 4096 CSRs (10_state.md R49) -/
  csrs : CsrFile
  /-- the program counter (10_state.md R44) -/
  pc : Word
  /-- the privilege mode (10_state.md R60) -/
  mode : Mode
  /-- MainMemory (20_memory.md R101) -/
  ram : Memory
  /-- BootRom (20_memory.md R102); no step changes it -/
  rom : Memory
  /-- `console_out`, oldest byte first (00_scope.md R11) -/
  console : List Byte
  /-- the DIAG report of the last step, none before the first: an output that no rule reads, the model's own field
  (00_scope.md R12; log entry 10) -/
  report : Option Report
  deriving DecidableEq, Repr

/-- What one instruction or one step answers. -/
abbrev Result := Host.Outcome State Fault Refusal

/-- `DRAM_END`, the exclusive end of MainMemory (00_scope.md R16), as a register value (log entry 14). -/
def dramEnd (cfg : Config) : Word := cfg.dramStart + BitVec.ofNat 64 cfg.dramSize

/-- The state after construction with `pc` as the loader's duty (c) sets it, both storage devices still zero (10_state.md R70,
70_reset_and_hazards.md R471): `sp` = `DRAM_END`, `a1` = `DTB_START`, `misa`, mode Machine, everything else zero or empty. -/
def State.construct (cfg : Config) : State where
  cfg := cfg
  regs := ((Vector.replicate 31 0#64).set 1 (dramEnd cfg)).set 10 cfg.dtbStart
  csrs := [(0x301, misaReset)]
  pc := cfg.dramStart
  mode := .machine
  ram := []
  rom := []
  console := []
  report := none

/-- The machine before its first step, in the example configuration, with nothing loaded (10_state.md R70; log entry 1). -/
def State.reset : State := State.construct testCfg

end Sys2Proof.Machine
end

