-- ==== Sys2Proof/Machine/Ops.lean ====
section
/-! DEFINITION. Machine/Ops.lean: the named operations over registers, CSRs, the program counter and storage bytes, taking an
exception and returning from one. Every read and every write of state goes through these. -/

namespace Sys2Proof.Machine

/-! ## Sparse storage: a list of (key, value) pairs in canonical form over a default value -/

/-- The value at key `k`; `d` where `k` is not listed. -/
def Sparse.get {β : Type} (d : β) : List (Nat × β) → Nat → β
  | [], _ => d
  | p :: rest, k => if p.1 = k then p.2 else Sparse.get d rest k

/-- The list without key `k`. -/
def Sparse.erase {β : Type} (l : List (Nat × β)) (k : Nat) : List (Nat × β) := l.filter fun p => p.1 ≠ k

/-- The list with `(k, v)` before the first greater key. -/
def Sparse.insert {β : Type} : List (Nat × β) → Nat → β → List (Nat × β)
  | [], k, v => [(k, v)]
  | p :: rest, k, v => if k < p.1 then (k, v) :: p :: rest else p :: Sparse.insert rest k v

/-- The list with `v` at key `k`; writing the default removes the entry. -/
def Sparse.set {β : Type} [DecidableEq β] (d : β) (l : List (Nat × β)) (k : Nat) (v : β) : List (Nat × β) :=
  if v = d then Sparse.erase l k else Sparse.insert (Sparse.erase l k) k v

/-- The canonical form: keys strictly rising, every key below `bound`, no value equal to the default. -/
def Sparse.wf {β : Type} [DecidableEq β] (d : β) (bound : Nat) (l : List (Nat × β)) : Bool :=
  decide (l.Pairwise fun p q => p.1 < q.1) && l.all fun p => decide (p.1 < bound) && decide (p.2 ≠ d)

/-! ## General registers (10_state.md R40, R41, R43) -/

/-- `x[r]`; `x[0]` is always 0 (00_scope.md R21, 10_state.md R41). -/
def State.readX (s : State) (r : RegIdx) : Word :=
  if h : r.toNat = 0 then 0#64 else s.regs[r.toNat - 1]'(by have := r.isLt; omega)

/-- `x[r] <- v`; a write to `x0` is discarded (00_scope.md R21, 10_state.md R41). -/
def State.writeX (s : State) (r : RegIdx) (v : Word) : State :=
  if h : r.toNat = 0 then s else { s with regs := s.regs.set (r.toNat - 1) v (by have := r.isLt; omega) }

/-! ## CSRs (10_state.md R49, R50) -/

/-- `CSR[c]`: plain storage, no side effect, readable in every mode. -/
def State.readCsr (s : State) (c : CsrIdx) : Word := Sparse.get unwrittenCsr s.csrs c.toNat

/-- `CSR[c] <- v`: all 64 bits are stored, whatever the number and the mode; the write is always performed (R51). -/
def State.writeCsr (s : State) (c : CsrIdx) (v : Word) : State :=
  { s with csrs := Sparse.set unwrittenCsr s.csrs c.toNat v }

/-- The canonical form of the CSR file. -/
def CsrFile.wf (f : CsrFile) : Bool := Sparse.wf unwrittenCsr csrCount f

/-! ## Bytes of a storage device (20_memory.md R99 to R101) -/

/-- The byte at a device offset. -/
def Memory.readByte (m : Memory) (off : Nat) : Byte := Sparse.get unwrittenByte m off

/-- The storage with `b` at a device offset. -/
def Memory.writeByte (m : Memory) (off : Nat) (b : Byte) : Memory := Sparse.set unwrittenByte m off b

/-- The `n` bytes from `off` on as one number, the byte at the lowest offset least significant (R99). -/
def Memory.readLE (m : Memory) (off : Nat) : Nat → Nat
  | 0 => 0
  | n + 1 => (m.readByte off).toNat + 256 * Memory.readLE m (off + 1) n

/-- The storage with the low `n` bytes of `v` at `off` to `off + n - 1`, the least significant at the lowest offset (R99). -/
def Memory.writeLE (m : Memory) (off : Nat) : Nat → Nat → Memory
  | 0, _ => m
  | n + 1, v => Memory.writeLE (m.writeByte off (BitVec.ofNat 8 v)) (off + 1) n (v / 256)

/-- The storage with the bytes of `bs` at offsets `off` on. -/
def Memory.writeBytes (m : Memory) (off : Nat) : List Byte → Memory
  | [] => m
  | b :: bs => Memory.writeBytes (m.writeByte off b) (off + 1) bs

/-- The canonical form of a storage device of `size` bytes: offsets strictly rising and below `size`, no byte equal to what an
unlisted offset reads as. -/
def Memory.wf (size : Nat) (m : Memory) : Bool := Sparse.wf unwrittenByte size m

/-! ## Retiring (00_scope.md R30, R31) -/

/-- The instruction retires and `pc <- target`; the report is `Retired`. -/
def State.retireTo (s : State) (target : Word) : State := { s with pc := target, report := some .retired }

/-- The instruction retires and sets no `pc` of its own: `pc <- pc + 4` modulo 2^64 (10_state.md R45, R47). -/
def retire (s : State) : Result := .next (s.retireTo (s.pc + 4#64))

/-! ## Exceptions (60_exceptions.md) -/

/-- The cause code of an exception (R420). -/
def Exc.code : Exc → Word
  | .illegalInstruction _ => 2#64
  | .loadAddressMisaligned => 4#64
  | .loadAccessFault => 5#64
  | .storeAddressMisaligned => 6#64
  | .storeAccessFault => 7#64
  | .environmentCallFromUser => 8#64
  | .environmentCallFromSupervisor => 9#64
  | .environmentCallFromMachine => 11#64
  | .hardwareError => 19#64

/-- The text of an IllegalInstruction label (R424). -/
def IllegalLabel.text : IllegalLabel → String
  | .compressed => "unsupported compressed instruction"
  | .noInterruptSource => "unsupported: no interrupt source"
  | .unimplementedMulhsu => "unimplemented: MULHSU"
  | .unimplementedLrSc => "unimplemented: LR/SC"
  | .mretReservedMpp => "MRET with reserved MPP"
  | .illegalInstruction => "illegal instruction"

/-- The diagnostic label of an exception: only IllegalInstruction and the environment calls carry one (R424). -/
def Exc.label : Exc → Option String
  | .illegalInstruction l => some l.text
  | .environmentCallFromUser => some "environment call from U"
  | .environmentCallFromSupervisor => some "environment call from S"
  | .environmentCallFromMachine => some "environment call from M"
  | .loadAddressMisaligned => none
  | .loadAccessFault => none
  | .storeAddressMisaligned => none
  | .storeAccessFault => none
  | .hardwareError => none

/-- `TrapEntry(E)` (R430): `mcause` gets the code, `mtval` 0, `mepc` the `pc` of the instruction that raised, and `pc` becomes
`mtvec`, whole, as it was before this step. Nothing else changes (R431); the report is `Trapped(E, label)`. -/
def trapEntry (e : Exc) (s : State) : State :=
  { ((s.writeCsr Csr.mcause e.code).writeCsr Csr.mtval 0#64).writeCsr Csr.mepc s.pc with
    pc := s.readCsr Csr.mtvec
    report := some (.trapped e) }

/-- `raise E` (00_scope.md R27): the instruction is abandoned with nothing written and the trap is delivered in the same step. -/
def raise (e : Exc) (s : State) : Result := .next (trapEntry e s)

/-- `raise IllegalInstruction(label)`. -/
def raiseIllegal (l : IllegalLabel) (s : State) : Result := raise (.illegalInstruction l) s

/-- `mstatus.MPP`, bits 12:11 of CSR 0x300 (10_state.md R53). -/
def State.mpp (s : State) : BitVec 2 := (s.readCsr Csr.mstatus).extractLsb' 11 2

/-- The mode MPP encodes; 10 is reserved (10_state.md R53, R60). -/
def modeOfMpp (mpp : BitVec 2) : Option Mode :=
  match mpp with
  | 0b00#2 => some .user
  | 0b01#2 => some .supervisor
  | 0b11#2 => some .machine
  | _ => none

/-- The return from an exception (47_system.md R361, 60_exceptions.md R434): `mode` from `mstatus.MPP`, `pc` from `mepc`, whole;
`mstatus` and `mepc` are not written. The reserved MPP raises. -/
def trapReturn (s : State) : Result :=
  match modeOfMpp s.mpp with
  | some m => .next ({ s with mode := m }.retireTo (s.readCsr Csr.mepc))
  | none => raiseIllegal .mretReservedMpp s

end Sys2Proof.Machine
end

