-- ==== Sys2Proof/Machine/Bus.lean ====
section
/-! DEFINITION. Machine/Bus.lean: the address-space dispatcher (20_memory.md): the region table, its validity, the two access
algorithms and the four devices. It is the only path from the engine to a device (R90). -/

namespace Sys2Proof.Machine

/-! ## The region table (20_memory.md R92, R93, R95, R96) -/

/-- The exclusive end of a region, as a number (it may be 2^64). -/
def regionEnd (r : Region) : Nat := r.start.toNat + r.size

/-- Whether an address is in a region: `start <= a < end`, unsigned (R92). -/
def regionHas (r : Region) (a : Word) : Bool := decide (r.start.toNat ≤ a.toNat) && decide (a.toNat < regionEnd r)

/-- Whether two regions share no address. -/
def regionsApart (r q : Region) : Bool := decide (regionEnd r ≤ q.start.toNat) || decide (regionEnd q ≤ r.start.toNat)

/-- The BootRom region (R93). -/
def romRegion (cfg : Config) : Region := ⟨cfg.dtbStart, romSize, .bootRom⟩
/-- The ConsoleSink region (R93). -/
def uartRegion (cfg : Config) : Region := ⟨cfg.uartStart, uartSize, .consoleSink⟩
/-- The TimerController region (R93). -/
def clintRegion (cfg : Config) : Region := ⟨cfg.clintStart, clintSize, .timerController⟩
/-- The MainMemory region (R93). -/
def dramRegion (cfg : Config) : Region := ⟨cfg.dramStart, cfg.dramSize, .mainMemory⟩

/-- The region table, in the order of R93. In a valid configuration at most one region contains an address, so the scan order
cannot change the result (R95). -/
def regionTable (cfg : Config) : List Region := [romRegion cfg, uartRegion cfg, clintRegion cfg, dramRegion cfg]

/-- The first region whose interval contains the address (R95). -/
def regionOf (cfg : Config) (a : Word) : Option Region := (regionTable cfg).find? fun r => regionHas r a

/-- V1 and V3 of R96 for one region: not empty, bounds multiples of 8, ends by 2^64. -/
def regionOk (r : Region) : Bool :=
  decide (0 < r.size) && decide (r.start.toNat % 8 = 0) && decide (regionEnd r % 8 = 0) && decide (regionEnd r ≤ 2 ^ 64)

/-- A valid configuration: V1 to V4 of R96. V2 asks that the regions, listed by ascending start, be disjoint: some order of
non-empty regions has that exactly when every two of them share no address (log entry 7, DEDUCED). V5 is the loader's
(Machine/Fetch.lean). -/
def configValid (cfg : Config) : Bool :=
  (regionTable cfg).all regionOk
    && decide ((regionTable cfg).Pairwise fun r q => regionsApart r q = true)
    && decide (0x04000000 ≤ cfg.dramSize)

/-! ## The two access algorithms (20_memory.md R97, R98) -/

/-- The legal widths in bits (R107). -/
def legalWidth (width : Nat) : Bool := width = 8 || width = 16 || width = 32 || width = 64

/-- What a device answers to a read of `n` bytes at a local offset (R99, R101 to R103, R105). -/
def deviceRead (s : State) (d : Device) (off n : Nat) : Nat :=
  match d with
  | .mainMemory => s.ram.readLE off n
  | .bootRom => s.rom.readLE off n
  | .consoleSink => 0
  | .timerController => 0

/-- `read(addr, width)` (R97): width, alignment, region, device, in this order; the value zero-extended to 64 bits. -/
def busRead (s : State) (addr : Word) (width : Nat) : Except Exc Word :=
  if legalWidth width = false then .error .hardwareError
  else if addr.toNat % (width / 8) ≠ 0 then .error .loadAddressMisaligned
  else
    match regionOf s.cfg addr with
    | none => .error .loadAccessFault
    | some r => .ok (BitVec.ofNat 64 (deviceRead s r.device (addr.toNat - r.start.toNat) (width / 8)))

/-- What a device does with a write of the low `n` bytes of `v` at a local offset: MainMemory stores them (R101), BootRom
refuses (R102), the console emits the low byte at offset 0 (R104), the timer ignores it (R105). -/
def deviceWrite (s : State) (d : Device) (off n : Nat) (v : Word) : Except Exc State :=
  match d with
  | .mainMemory => .ok { s with ram := s.ram.writeLE off n v.toNat }
  | .bootRom => .error .storeAccessFault
  | .consoleSink => .ok (if off = 0 then { s with console := s.console ++ [v.setWidth 8] } else s)
  | .timerController => .ok s

/-- `write(addr, value, width)` (R98): width, alignment, region, device, in this order. A write that raises changes nothing. -/
def busWrite (s : State) (addr : Word) (v : Word) (width : Nat) : Except Exc State :=
  if legalWidth width = false then .error .hardwareError
  else if addr.toNat % (width / 8) ≠ 0 then .error .storeAddressMisaligned
  else
    match regionOf s.cfg addr with
    | none => .error .storeAccessFault
    | some r => deviceWrite s r.device (addr.toNat - r.start.toNat) (width / 8) v

/-- `MemRead(addr, n)` (00_scope.md R25). -/
def memRead (s : State) (addr : Word) (n : Nat) : Except Exc Word := busRead s addr (8 * n)

/-- `MemWrite(addr, n, v)` (00_scope.md R26). -/
def memWrite (s : State) (addr : Word) (n : Nat) (v : Word) : Except Exc State := busWrite s addr v (8 * n)

/-- The byte a one-byte read at `a` gives; none where the read raises. What frames say of memory they say through this. -/
def State.byteAt (s : State) (a : Word) : Option Byte :=
  match memRead s a 1 with
  | .ok v => some (v.setWidth 8)
  | .error _ => none

end Sys2Proof.Machine
end

