-- ==== Sys2Proof/Machine/Operands.lean ====
section
/-! DEFINITION. Machine/Operands.lean: every operand form of the instruction rules: immediates, shift amounts, the 32-bit
halves, extensions, the effective address. -/

namespace Sys2Proof.Machine

/-! ## Extensions (00_scope.md R19) -/

/-- `sext_32` of a 32-bit result. -/
def sext32 (r : Word32) : Word := r.signExtend 64

/-- `sext_8` of a loaded value. -/
def loadSext8 (v : Word) : Word := (v.setWidth 8).signExtend 64
/-- `sext_16` of a loaded value. -/
def loadSext16 (v : Word) : Word := (v.setWidth 16).signExtend 64
/-- `sext_32` of a loaded value. -/
def loadSext32 (v : Word) : Word := (v.setWidth 32).signExtend 64
/-- `zext_8` of a loaded value. -/
def loadZext8 (v : Word) : Word := (v.setWidth 8).setWidth 64
/-- `zext_16` of a loaded value. -/
def loadZext16 (v : Word) : Word := (v.setWidth 16).setWidth 64
/-- `zext_32` of a loaded value. -/
def loadZext32 (v : Word) : Word := (v.setWidth 32).setWidth 64

/-! ## Immediates (30_encoding.md R150 to R156) -/

/-- `sext_12` of an I-type or S-type immediate field (R150, R151). -/
def sextImm12 (imm : BitVec 12) : Word := imm.signExtend 64
/-- `sext_13` of a branch offset (R152). -/
def sextOffset13 (offset : BitVec 13) : Word := offset.signExtend 64
/-- `sext_21` of a JAL offset (R154). -/
def sextOffset21 (offset : BitVec 21) : Word := offset.signExtend 64
/-- `sext_32` of the U-type field over twelve zero bits (R153). -/
def upperImm (imm20 : BitVec 20) : Word := (imm20 ++ 0#12).signExtend 64
/-- `zext_5` of the `zimm` field (R156). -/
def zextZimm (zimm : BitVec 5) : Word := zimm.setWidth 64

/-! ## Register operands -/

/-- The low 32 bits of `x[r]`, the operand of the "W" instructions (42_op32_word.md R240). -/
def State.readX32 (s : State) (r : RegIdx) : Word32 := (s.readX r).setWidth 32

/-- `x[r][5:0]`, the amount of a 64-bit shift (40_op_register.md R203). -/
def State.shamt6 (s : State) (r : RegIdx) : Nat := ((s.readX r).extractLsb' 0 6).toNat

/-- `x[r][4:0]`, the amount of a 32-bit shift (42_op32_word.md R241). -/
def State.shamt5 (s : State) (r : RegIdx) : Nat := ((s.readX r).extractLsb' 0 5).toNat

/-- The effective address of a load or store, `(x[rs1] + sext_12(imm)) mod 2^64` (46_load_store_fence.md R320). -/
def effectiveAddr (s : State) (rs1 : RegIdx) (imm : BitVec 12) : Word := s.readX rs1 + sextImm12 imm

end Sys2Proof.Machine
end

