-- ==== Sys2Proof/Machine/Amo.lean ====
section
/-! DEFINITION. Machine/Amo.lean: the AMO family (48_amo.md R380 to R402). `aq` and `rl` are ignored (R382) and reach no
meaning. -/

namespace Sys2Proof.Machine

/-! ## The operations, on 32 or 64 bits (R384 to R399) -/

def amoMinSigned {w : Nat} (old s : BitVec w) : BitVec w := if old.toInt ≤ s.toInt then old else s
def amoMaxSigned {w : Nat} (old s : BitVec w) : BitVec w := if s.toInt ≤ old.toInt then old else s
def amoMinUnsigned {w : Nat} (old s : BitVec w) : BitVec w := if old.toNat ≤ s.toNat then old else s
def amoMaxUnsigned {w : Nat} (old s : BitVec w) : BitVec w := if s.toNat ≤ old.toNat then old else s

/-- An AMO of `n` bytes (R380): address `x[rs1]`, the read, then the write of the new value, then `x[rd]`; `x[rs1]` and
`x[rs2]` are sampled first. `new` forms the value written and `ret` the value returned, both from the value read; all effects
happen or none does. -/
def amo (rd rs1 : RegIdx) (n : Nat) (new ret : Word → Word) (s : State) : Result :=
  match memRead s (s.readX rs1) n with
  | .error e => raise e s
  | .ok old =>
    match memWrite s (s.readX rs1) n (new old) with
    | .error e => raise e s
    | .ok t => retire (t.writeX rd (ret old))

/-- A `.W` AMO (R381): 32-bit arithmetic on the low half of `x[rs2]`; `x[rd]` gets the old word sign-extended. -/
def amoW (f : Word32 → Word32 → Word32) (rd rs1 rs2 : RegIdx) (s : State) : Result :=
  amo rd rs1 4 (fun old => (f (old.setWidth 32) (s.readX32 rs2)).setWidth 64) loadSext32 s

/-- A `.D` AMO (R381): 64 bits, no extension. -/
def amoD (f : Word → Word → Word) (rd rs1 rs2 : RegIdx) (s : State) : Result :=
  amo rd rs1 8 (fun old => f old (s.readX rs2)) id s

/-- AMOADD.W (R384) -/
def execAmoaddW (rd rs1 rs2 : RegIdx) (s : State) : Result := amoW (fun old v => old + v) rd rs1 rs2 s
/-- AMOXOR.W (R385) -/
def execAmoxorW (rd rs1 rs2 : RegIdx) (s : State) : Result := amoW (fun old v => old ^^^ v) rd rs1 rs2 s
/-- AMOAND.W (R386) -/
def execAmoandW (rd rs1 rs2 : RegIdx) (s : State) : Result := amoW (fun old v => old &&& v) rd rs1 rs2 s
/-- AMOOR.W (R387) -/
def execAmoorW (rd rs1 rs2 : RegIdx) (s : State) : Result := amoW (fun old v => old ||| v) rd rs1 rs2 s
/-- AMOMIN.W (R388) -/
def execAmominW (rd rs1 rs2 : RegIdx) (s : State) : Result := amoW amoMinSigned rd rs1 rs2 s
/-- AMOMAX.W (R389) -/
def execAmomaxW (rd rs1 rs2 : RegIdx) (s : State) : Result := amoW amoMaxSigned rd rs1 rs2 s
/-- AMOMINU.W (R390) -/
def execAmominuW (rd rs1 rs2 : RegIdx) (s : State) : Result := amoW amoMinUnsigned rd rs1 rs2 s
/-- AMOMAXU.W (R391) -/
def execAmomaxuW (rd rs1 rs2 : RegIdx) (s : State) : Result := amoW amoMaxUnsigned rd rs1 rs2 s
/-- AMOADD.D (R392) -/
def execAmoaddD (rd rs1 rs2 : RegIdx) (s : State) : Result := amoD (fun old v => old + v) rd rs1 rs2 s
/-- AMOXOR.D (R393) -/
def execAmoxorD (rd rs1 rs2 : RegIdx) (s : State) : Result := amoD (fun old v => old ^^^ v) rd rs1 rs2 s
/-- AMOAND.D (R394) -/
def execAmoandD (rd rs1 rs2 : RegIdx) (s : State) : Result := amoD (fun old v => old &&& v) rd rs1 rs2 s
/-- AMOOR.D (R395) -/
def execAmoorD (rd rs1 rs2 : RegIdx) (s : State) : Result := amoD (fun old v => old ||| v) rd rs1 rs2 s
/-- AMOMIN.D (R396) -/
def execAmominD (rd rs1 rs2 : RegIdx) (s : State) : Result := amoD amoMinSigned rd rs1 rs2 s
/-- AMOMAX.D (R397) -/
def execAmomaxD (rd rs1 rs2 : RegIdx) (s : State) : Result := amoD amoMaxSigned rd rs1 rs2 s
/-- AMOMINU.D (R398) -/
def execAmominuD (rd rs1 rs2 : RegIdx) (s : State) : Result := amoD amoMinUnsigned rd rs1 rs2 s
/-- AMOMAXU.D (R399) -/
def execAmomaxuD (rd rs1 rs2 : RegIdx) (s : State) : Result := amoD amoMaxUnsigned rd rs1 rs2 s
/-- LR.W (R400): always raises, before any register or memory access. -/
def execLrW (_rd _rs1 _rs2 : RegIdx) (s : State) : Result := raiseIllegal .unimplementedLrSc s
/-- LR.D (R400): always raises, before any register or memory access. -/
def execLrD (_rd _rs1 _rs2 : RegIdx) (s : State) : Result := raiseIllegal .unimplementedLrSc s
/-- SC.W (R400): always raises, before any register or memory access. -/
def execScW (_rd _rs1 _rs2 : RegIdx) (s : State) : Result := raiseIllegal .unimplementedLrSc s
/-- SC.D (R400): always raises, before any register or memory access. -/
def execScD (_rd _rs1 _rs2 : RegIdx) (s : State) : Result := raiseIllegal .unimplementedLrSc s
/-- AMOSWAP.W (R401): always raises, no memory access. -/
def execAmoswapW (_rd _rs1 _rs2 : RegIdx) (s : State) : Result := raiseIllegal .illegalInstruction s
/-- AMOSWAP.D (R401): always raises, no memory access. -/
def execAmoswapD (_rd _rs1 _rs2 : RegIdx) (s : State) : Result := raiseIllegal .illegalInstruction s

end Sys2Proof.Machine
end

