-- ==== Sys2Proof/Machine/Flags.lean ====
section
/-! DEFINITION. Machine/Flags.lean: the hardware has no flags (10_state.md R48). A comparison writes 0 or 1 into a general
register or decides a branch; these are the comparisons (00_scope.md R20). -/

namespace Sys2Proof.Machine

/-- `a <s b`: the signed readings are compared (R20). -/
def ltSigned (a b : Word) : Bool := decide (a.toInt < b.toInt)

/-- `a <u b`: the unsigned readings are compared (R20). -/
def ltUnsigned (a b : Word) : Bool := decide (a.toNat < b.toNat)

/-- The 64-bit value 1 or 0 a comparison gives (R20). -/
def flagWord (b : Bool) : Word := if b then 1#64 else 0#64

end Sys2Proof.Machine
end

