-- ==== Sys2Proof/Machine/JumpBranch.lean ====
section
/-! DEFINITION. Machine/JumpBranch.lean: JAL, JALR and the conditional branches (45_jump_branch.md R300 to R311). No target is
checked here: a bad one makes the next fetch raise (R300). -/

namespace Sys2Proof.Machine

/-- A jump that links: `x[rd] <- pc + 4`, `pc <- target`, the target computed before the link is written (R300, R303). -/
def jumpAndLink (rd : RegIdx) (target : Word) (s : State) : Result := .next ((s.writeX rd (s.pc + 4#64)).retireTo target)

/-- A conditional branch (R304): taken, `pc <- pc + offset`; not taken, `pc <- pc + 4`. -/
def branchIf (cond : Bool) (offset : BitVec 13) (s : State) : Result :=
  if cond then .next (s.retireTo (s.pc + sextOffset13 offset)) else retire s

/-- The JALR target: `(x[rs1] + sext_12(imm)) & ~1` (R303). -/
def jalrTarget (s : State) (rs1 : RegIdx) (imm : BitVec 12) : Word := (s.readX rs1 + sextImm12 imm) &&& ~~~1#64

/-- JAL (R302) -/
def execJal (rd : RegIdx) (offset : BitVec 21) (s : State) : Result := jumpAndLink rd (s.pc + sextOffset21 offset) s
/-- JALR (R303) -/
def execJalr (rd rs1 : RegIdx) (imm : BitVec 12) (s : State) : Result := jumpAndLink rd (jalrTarget s rs1 imm) s
/-- BEQ (R305) -/
def execBeq (rs1 rs2 : RegIdx) (offset : BitVec 13) (s : State) : Result :=
  branchIf (decide (s.readX rs1 = s.readX rs2)) offset s
/-- BNE (R306) -/
def execBne (rs1 rs2 : RegIdx) (offset : BitVec 13) (s : State) : Result :=
  branchIf (decide (s.readX rs1 ≠ s.readX rs2)) offset s
/-- BLT (R307) -/
def execBlt (rs1 rs2 : RegIdx) (offset : BitVec 13) (s : State) : Result :=
  branchIf (ltSigned (s.readX rs1) (s.readX rs2)) offset s
/-- BGE (R308) -/
def execBge (rs1 rs2 : RegIdx) (offset : BitVec 13) (s : State) : Result :=
  branchIf (!ltSigned (s.readX rs1) (s.readX rs2)) offset s
/-- BLTU (R309) -/
def execBltu (rs1 rs2 : RegIdx) (offset : BitVec 13) (s : State) : Result :=
  branchIf (ltUnsigned (s.readX rs1) (s.readX rs2)) offset s
/-- BGEU (R310) -/
def execBgeu (rs1 rs2 : RegIdx) (offset : BitVec 13) (s : State) : Result :=
  branchIf (!ltUnsigned (s.readX rs1) (s.readX rs2)) offset s

end Sys2Proof.Machine
end

