-- ==== Sys2Proof/Machine/LoadStore.lean ====
section
/-! DEFINITION. Machine/LoadStore.lean: loads, stores and fences (46_load_store_fence.md R320 to R341). -/

namespace Sys2Proof.Machine

/-- A load of `n` bytes (R321): the read is made whatever `rd` is; when it raises, `x[rd]` keeps its value. -/
def loadInto (rd rs1 : RegIdx) (imm : BitVec 12) (n : Nat) (ext : Word → Word) (s : State) : Result :=
  match memRead s (effectiveAddr s rs1 imm) n with
  | .ok v => retire (s.writeX rd (ext v))
  | .error e => raise e s

/-- A store of the low `n` bytes of `x[rs2]` (R329). -/
def storeFrom (rs1 rs2 : RegIdx) (imm : BitVec 12) (n : Nat) (s : State) : Result :=
  match memWrite s (effectiveAddr s rs1 imm) n (s.readX rs2) with
  | .ok t => retire t
  | .error e => raise e s

/-- LB (R322) -/
def execLb (rd rs1 : RegIdx) (imm : BitVec 12) (s : State) : Result := loadInto rd rs1 imm 1 loadSext8 s
/-- LH (R323) -/
def execLh (rd rs1 : RegIdx) (imm : BitVec 12) (s : State) : Result := loadInto rd rs1 imm 2 loadSext16 s
/-- LW (R324) -/
def execLw (rd rs1 : RegIdx) (imm : BitVec 12) (s : State) : Result := loadInto rd rs1 imm 4 loadSext32 s
/-- LD (R325): all 64 bits, no extension (90_conflicts.md C1). -/
def execLd (rd rs1 : RegIdx) (imm : BitVec 12) (s : State) : Result := loadInto rd rs1 imm 8 id s
/-- LBU (R326) -/
def execLbu (rd rs1 : RegIdx) (imm : BitVec 12) (s : State) : Result := loadInto rd rs1 imm 1 loadZext8 s
/-- LHU (R327) -/
def execLhu (rd rs1 : RegIdx) (imm : BitVec 12) (s : State) : Result := loadInto rd rs1 imm 2 loadZext16 s
/-- LWU (R328) -/
def execLwu (rd rs1 : RegIdx) (imm : BitVec 12) (s : State) : Result := loadInto rd rs1 imm 4 loadZext32 s
/-- SB (R330) -/
def execSb (rs1 rs2 : RegIdx) (imm : BitVec 12) (s : State) : Result := storeFrom rs1 rs2 imm 1 s
/-- SH (R331) -/
def execSh (rs1 rs2 : RegIdx) (imm : BitVec 12) (s : State) : Result := storeFrom rs1 rs2 imm 2 s
/-- SW (R332) -/
def execSw (rs1 rs2 : RegIdx) (imm : BitVec 12) (s : State) : Result := storeFrom rs1 rs2 imm 4 s
/-- SD (R333) -/
def execSd (rs1 rs2 : RegIdx) (imm : BitVec 12) (s : State) : Result := storeFrom rs1 rs2 imm 8 s
/-- FENCE (R340): a no-op, every field ignored (30_encoding.md R178). -/
def execFence (_fm _pred _succ : BitVec 4) (_rs1 _rd : RegIdx) (s : State) : Result := retire s
/-- FENCE.I (R341): a no-op, every field ignored (30_encoding.md R178). -/
def execFenceI (_fm _pred _succ : BitVec 4) (_rs1 _rd : RegIdx) (s : State) : Result := retire s

end Sys2Proof.Machine
end

