-- ==== Sys2Proof/Machine/OpRegister.lean ====
section
/-! DEFINITION. Machine/OpRegister.lean: the OP family at 64 bits (40_op_register.md R200 to R211). -/

namespace Sys2Proof.Machine

/-- An instruction whose one effect is a value in `x[rd]` (R200, R240, R260): the value was computed from the state before the
write, and `pc <- pc + 4`. -/
def writeResult (rd : RegIdx) (v : Word) (s : State) : Result := retire (s.writeX rd v)

/-- ADD (R201) -/
def execAdd (rd rs1 rs2 : RegIdx) (s : State) : Result := writeResult rd (s.readX rs1 + s.readX rs2) s
/-- SUB (R202) -/
def execSub (rd rs1 rs2 : RegIdx) (s : State) : Result := writeResult rd (s.readX rs1 - s.readX rs2) s
/-- SLL (R203) -/
def execSll (rd rs1 rs2 : RegIdx) (s : State) : Result := writeResult rd (s.readX rs1 <<< s.shamt6 rs2) s
/-- SLT (R204) -/
def execSlt (rd rs1 rs2 : RegIdx) (s : State) : Result :=
  writeResult rd (flagWord (ltSigned (s.readX rs1) (s.readX rs2))) s
/-- SLTU (R205) -/
def execSltu (rd rs1 rs2 : RegIdx) (s : State) : Result :=
  writeResult rd (flagWord (ltUnsigned (s.readX rs1) (s.readX rs2))) s
/-- XOR (R206) -/
def execXor (rd rs1 rs2 : RegIdx) (s : State) : Result := writeResult rd (s.readX rs1 ^^^ s.readX rs2) s
/-- SRL (R207) -/
def execSrl (rd rs1 rs2 : RegIdx) (s : State) : Result := writeResult rd (s.readX rs1 >>> s.shamt6 rs2) s
/-- SRA (R208) -/
def execSra (rd rs1 rs2 : RegIdx) (s : State) : Result := writeResult rd ((s.readX rs1).sshiftRight (s.shamt6 rs2)) s
/-- OR (R209) -/
def execOr (rd rs1 rs2 : RegIdx) (s : State) : Result := writeResult rd (s.readX rs1 ||| s.readX rs2) s
/-- AND (R210) -/
def execAnd (rd rs1 rs2 : RegIdx) (s : State) : Result := writeResult rd (s.readX rs1 &&& s.readX rs2) s

end Sys2Proof.Machine
end

