-- ==== Sys2Proof/Machine/MulDiv.lean ====
section
/-! DEFINITION. Machine/MulDiv.lean: the M extension at 64 bits (41_op_muldiv.md R220 to R229), and the division operations of
R220, whose width is 64 here and 32 in Machine/Op32.lean. -/

namespace Sys2Proof.Machine

/-! ## Division with the corner cases of R220 -/

/-- Signed quotient: all ones by zero, the dividend on overflow, else rounded toward zero (R220, R224). -/
def divSigned {w : Nat} (a b : BitVec w) : BitVec w :=
  if b = 0#w then BitVec.allOnes w
  else if a = BitVec.intMin w ∧ b = BitVec.allOnes w then BitVec.intMin w
  else BitVec.ofInt w (a.toInt.tdiv b.toInt)

/-- Unsigned quotient: all ones by zero (R220, R225). -/
def divUnsigned {w : Nat} (a b : BitVec w) : BitVec w :=
  if b = 0#w then BitVec.allOnes w else BitVec.ofNat w (a.toNat / b.toNat)

/-- Signed remainder: the dividend by zero, 0 on overflow, else with the sign of the dividend (R220, R226). -/
def remSigned {w : Nat} (a b : BitVec w) : BitVec w :=
  if b = 0#w then a
  else if a = BitVec.intMin w ∧ b = BitVec.allOnes w then 0#w
  else BitVec.ofInt w (a.toInt - b.toInt * a.toInt.tdiv b.toInt)

/-- Unsigned remainder: the dividend by zero (R220, R228). -/
def remUnsigned {w : Nat} (a b : BitVec w) : BitVec w :=
  if b = 0#w then a else BitVec.ofNat w (a.toNat % b.toNat)

/-! ## High halves of the 128-bit product -/

/-- Bits 127:64 of the signed product (R222). -/
def mulHighSigned (a b : Word) : Word := ((a.signExtend 128) * (b.signExtend 128)).extractLsb' 64 64

/-- Bits 127:64 of the unsigned product (R223). -/
def mulHighUnsigned (a b : Word) : Word := ((a.setWidth 128) * (b.setWidth 128)).extractLsb' 64 64

/-! ## The instructions -/

/-- MUL (R221) -/
def execMul (rd rs1 rs2 : RegIdx) (s : State) : Result := writeResult rd (s.readX rs1 * s.readX rs2) s
/-- MULH (R222) -/
def execMulh (rd rs1 rs2 : RegIdx) (s : State) : Result := writeResult rd (mulHighSigned (s.readX rs1) (s.readX rs2)) s
/-- MULHSU (R227): always raises, for every operand. -/
def execMulhsu (_rd _rs1 _rs2 : RegIdx) (s : State) : Result := raiseIllegal .unimplementedMulhsu s
/-- MULHU (R223) -/
def execMulhu (rd rs1 rs2 : RegIdx) (s : State) : Result := writeResult rd (mulHighUnsigned (s.readX rs1) (s.readX rs2)) s
/-- DIV (R224) -/
def execDiv (rd rs1 rs2 : RegIdx) (s : State) : Result := writeResult rd (divSigned (s.readX rs1) (s.readX rs2)) s
/-- DIVU (R225) -/
def execDivu (rd rs1 rs2 : RegIdx) (s : State) : Result := writeResult rd (divUnsigned (s.readX rs1) (s.readX rs2)) s
/-- REM (R226) -/
def execRem (rd rs1 rs2 : RegIdx) (s : State) : Result := writeResult rd (remSigned (s.readX rs1) (s.readX rs2)) s
/-- REMU (R228) -/
def execRemu (rd rs1 rs2 : RegIdx) (s : State) : Result := writeResult rd (remUnsigned (s.readX rs1) (s.readX rs2)) s

end Sys2Proof.Machine
end

