-- ==== Sys2Proof/Machine/Op32.lean ====
section
/-! DEFINITION. Machine/Op32.lean: the OP-32 family (42_op32_word.md R240 to R252): 32-bit operations on the low halves, the
32-bit result sign-extended, for the unsigned forms as well. -/

namespace Sys2Proof.Machine

/-- A "W" instruction writes `sext_32` of its 32-bit result (R240). -/
def writeResult32 (rd : RegIdx) (r : Word32) (s : State) : Result := writeResult rd (sext32 r) s

/-- ADDW (R242) -/
def execAddw (rd rs1 rs2 : RegIdx) (s : State) : Result := writeResult32 rd (s.readX32 rs1 + s.readX32 rs2) s
/-- SUBW (R243) -/
def execSubw (rd rs1 rs2 : RegIdx) (s : State) : Result := writeResult32 rd (s.readX32 rs1 - s.readX32 rs2) s
/-- SLLW (R244) -/
def execSllw (rd rs1 rs2 : RegIdx) (s : State) : Result := writeResult32 rd (s.readX32 rs1 <<< s.shamt5 rs2) s
/-- SRLW (R245) -/
def execSrlw (rd rs1 rs2 : RegIdx) (s : State) : Result := writeResult32 rd (s.readX32 rs1 >>> s.shamt5 rs2) s
/-- SRAW (R246) -/
def execSraw (rd rs1 rs2 : RegIdx) (s : State) : Result :=
  writeResult32 rd ((s.readX32 rs1).sshiftRight (s.shamt5 rs2)) s
/-- MULW (R247) -/
def execMulw (rd rs1 rs2 : RegIdx) (s : State) : Result := writeResult32 rd (s.readX32 rs1 * s.readX32 rs2) s
/-- DIVW (R248) -/
def execDivw (rd rs1 rs2 : RegIdx) (s : State) : Result := writeResult32 rd (divSigned (s.readX32 rs1) (s.readX32 rs2)) s
/-- DIVUW (R249) -/
def execDivuw (rd rs1 rs2 : RegIdx) (s : State) : Result :=
  writeResult32 rd (divUnsigned (s.readX32 rs1) (s.readX32 rs2)) s
/-- REMW (R250) -/
def execRemw (rd rs1 rs2 : RegIdx) (s : State) : Result := writeResult32 rd (remSigned (s.readX32 rs1) (s.readX32 rs2)) s
/-- REMUW (R251) -/
def execRemuw (rd rs1 rs2 : RegIdx) (s : State) : Result :=
  writeResult32 rd (remUnsigned (s.readX32 rs1) (s.readX32 rs2)) s

end Sys2Proof.Machine
end

