-- ==== Sys2Proof/Machine/OpImm.lean ====
section
/-! DEFINITION. Machine/OpImm.lean: the OP-IMM and OP-IMM-32 families (43_op_imm.md R260 to R274). The 12-bit immediate is
sign-extended to 64 bits for every one of them; a shift amount is an unsigned field (R274). -/

namespace Sys2Proof.Machine

/-- ADDI (R261) -/
def execAddi (rd rs1 : RegIdx) (imm : BitVec 12) (s : State) : Result := writeResult rd (s.readX rs1 + sextImm12 imm) s
/-- SLTI (R262) -/
def execSlti (rd rs1 : RegIdx) (imm : BitVec 12) (s : State) : Result :=
  writeResult rd (flagWord (ltSigned (s.readX rs1) (sextImm12 imm))) s
/-- SLTIU (R263): sign-extended first, then compared unsigned. -/
def execSltiu (rd rs1 : RegIdx) (imm : BitVec 12) (s : State) : Result :=
  writeResult rd (flagWord (ltUnsigned (s.readX rs1) (sextImm12 imm))) s
/-- XORI (R264) -/
def execXori (rd rs1 : RegIdx) (imm : BitVec 12) (s : State) : Result := writeResult rd (s.readX rs1 ^^^ sextImm12 imm) s
/-- ORI (R265) -/
def execOri (rd rs1 : RegIdx) (imm : BitVec 12) (s : State) : Result := writeResult rd (s.readX rs1 ||| sextImm12 imm) s
/-- ANDI (R266) -/
def execAndi (rd rs1 : RegIdx) (imm : BitVec 12) (s : State) : Result := writeResult rd (s.readX rs1 &&& sextImm12 imm) s
/-- SLLI (R267) -/
def execSlli (rd rs1 : RegIdx) (shamt : BitVec 6) (s : State) : Result := writeResult rd (s.readX rs1 <<< shamt.toNat) s
/-- SRLI (R268) -/
def execSrli (rd rs1 : RegIdx) (shamt : BitVec 6) (s : State) : Result := writeResult rd (s.readX rs1 >>> shamt.toNat) s
/-- SRAI (R269) -/
def execSrai (rd rs1 : RegIdx) (shamt : BitVec 6) (s : State) : Result :=
  writeResult rd ((s.readX rs1).sshiftRight shamt.toNat) s
/-- ADDIW (R270) -/
def execAddiw (rd rs1 : RegIdx) (imm : BitVec 12) (s : State) : Result :=
  writeResult32 rd (s.readX32 rs1 + (sextImm12 imm).setWidth 32) s
/-- SLLIW (R271) -/
def execSlliw (rd rs1 : RegIdx) (shamt : BitVec 5) (s : State) : Result :=
  writeResult32 rd (s.readX32 rs1 <<< shamt.toNat) s
/-- SRLIW (R272) -/
def execSrliw (rd rs1 : RegIdx) (shamt : BitVec 5) (s : State) : Result :=
  writeResult32 rd (s.readX32 rs1 >>> shamt.toNat) s
/-- SRAIW (R273) -/
def execSraiw (rd rs1 : RegIdx) (shamt : BitVec 5) (s : State) : Result :=
  writeResult32 rd ((s.readX32 rs1).sshiftRight shamt.toNat) s

end Sys2Proof.Machine
end

