-- ==== Sys2Proof/Machine/System.lean ====
section
/-! DEFINITION. Machine/System.lean: the SYSTEM family (47_system.md R350 to R366). No instruction of it checks the mode
(60_exceptions.md R441). -/

namespace Sys2Proof.Machine

/-- A CSR instruction (R350): `x[rd]` gets the old value and `CSR[c]` the new one, both read before either write; the read and
the write are always made. -/
def csrUpdate (rd : RegIdx) (csr : CsrIdx) (new : Word) (s : State) : Result :=
  retire ((s.writeCsr csr new).writeX rd (s.readCsr csr))

/-- CSRRW (R351) -/
def execCsrrw (rd : RegIdx) (csr : CsrIdx) (rs1 : RegIdx) (s : State) : Result := csrUpdate rd csr (s.readX rs1) s
/-- CSRRS (R352) -/
def execCsrrs (rd : RegIdx) (csr : CsrIdx) (rs1 : RegIdx) (s : State) : Result :=
  csrUpdate rd csr (s.readCsr csr ||| s.readX rs1) s
/-- CSRRC (R353) -/
def execCsrrc (rd : RegIdx) (csr : CsrIdx) (rs1 : RegIdx) (s : State) : Result :=
  csrUpdate rd csr (s.readCsr csr &&& ~~~s.readX rs1) s
/-- CSRRWI (R354) -/
def execCsrrwi (rd : RegIdx) (csr : CsrIdx) (zimm : BitVec 5) (s : State) : Result := csrUpdate rd csr (zextZimm zimm) s
/-- CSRRSI (R355) -/
def execCsrrsi (rd : RegIdx) (csr : CsrIdx) (zimm : BitVec 5) (s : State) : Result :=
  csrUpdate rd csr (s.readCsr csr ||| zextZimm zimm) s
/-- CSRRCI (R356) -/
def execCsrrci (rd : RegIdx) (csr : CsrIdx) (zimm : BitVec 5) (s : State) : Result :=
  csrUpdate rd csr (s.readCsr csr &&& ~~~zextZimm zimm) s

/-- The exception ECALL raises in a mode (R360). -/
def ecallExc : Mode → Exc
  | .user => .environmentCallFromUser
  | .supervisor => .environmentCallFromSupervisor
  | .machine => .environmentCallFromMachine

/-- ECALL (R360): always raises, `mepc` being its own address. -/
def execEcall (s : State) : Result := raise (ecallExc s.mode) s
/-- MRET (R361) -/
def execMret (s : State) : Result := trapReturn s
/-- WFI (R362): always raises, in every mode. -/
def execWfi (s : State) : Result := raiseIllegal .noInterruptSource s

end Sys2Proof.Machine
end

