-- ==== Sys2Proof/Machine/UpperImm.lean ====
section
/-! DEFINITION. Machine/UpperImm.lean: LUI and AUIPC (44_lui_auipc.md R290 to R292). -/

namespace Sys2Proof.Machine

/-- LUI (R290) -/
def execLui (rd : RegIdx) (imm20 : BitVec 20) (s : State) : Result := writeResult rd (upperImm imm20) s
/-- AUIPC (R291): `pc` is the address of the AUIPC itself. -/
def execAuipc (rd : RegIdx) (imm20 : BitVec 20) (s : State) : Result := writeResult rd (s.pc + upperImm imm20) s

end Sys2Proof.Machine
end

