-- ==== Sys2Proof/Syntax.lean ====
section
/-! DEFINITION. Syntax.lean: the instructions, one constructor per row of spec/opcode_table.json, with the operand fields of
30_encoding.md R145.

Operands are the fields of the word: `imm`, `imm20`, `zimm`, `csr` and `shamt` are the fields as they stand, extended by the
meanings. `offset` is the byte offset of a branch (R152) or of JAL (R154) with its bit 0, which every encoding has as 0; a term
with an odd offset stands for no word, and WellFormed.lean refuses it. Fields the hardware ignores (R178: all of FENCE and
FENCE.I, `aq` and `rl` of an AMO, `rs2` of LR) are kept, so that no bit of a word is lost; the meanings do not read them. -/

namespace Sys2Proof

/-- The instructions of the hardware. -/
inductive Instr where
  -- OP: 64-bit register-register (40_op_register.md)
  /-- ADD (R201) -/
  | add (rd rs1 rs2 : RegIdx)
  /-- SUB (R202) -/
  | sub (rd rs1 rs2 : RegIdx)
  /-- SLL (R203) -/
  | sll (rd rs1 rs2 : RegIdx)
  /-- SLT (R204) -/
  | slt (rd rs1 rs2 : RegIdx)
  /-- SLTU (R205) -/
  | sltu (rd rs1 rs2 : RegIdx)
  /-- XOR (R206) -/
  | xor (rd rs1 rs2 : RegIdx)
  /-- SRL (R207) -/
  | srl (rd rs1 rs2 : RegIdx)
  /-- SRA (R208) -/
  | sra (rd rs1 rs2 : RegIdx)
  /-- OR (R209) -/
  | or (rd rs1 rs2 : RegIdx)
  /-- AND (R210) -/
  | and (rd rs1 rs2 : RegIdx)
  -- OP: the M extension at 64 bits (41_op_muldiv.md)
  /-- MUL (R221) -/
  | mul (rd rs1 rs2 : RegIdx)
  /-- MULH (R222) -/
  | mulh (rd rs1 rs2 : RegIdx)
  /-- MULHSU (R227; always raises) -/
  | mulhsu (rd rs1 rs2 : RegIdx)
  /-- MULHU (R223) -/
  | mulhu (rd rs1 rs2 : RegIdx)
  /-- DIV (R224) -/
  | div (rd rs1 rs2 : RegIdx)
  /-- DIVU (R225) -/
  | divu (rd rs1 rs2 : RegIdx)
  /-- REM (R226) -/
  | rem (rd rs1 rs2 : RegIdx)
  /-- REMU (R228) -/
  | remu (rd rs1 rs2 : RegIdx)
  -- OP-32: 32-bit register-register (42_op32_word.md)
  /-- ADDW (R242) -/
  | addw (rd rs1 rs2 : RegIdx)
  /-- SUBW (R243) -/
  | subw (rd rs1 rs2 : RegIdx)
  /-- SLLW (R244) -/
  | sllw (rd rs1 rs2 : RegIdx)
  /-- SRLW (R245) -/
  | srlw (rd rs1 rs2 : RegIdx)
  /-- SRAW (R246) -/
  | sraw (rd rs1 rs2 : RegIdx)
  /-- MULW (R247) -/
  | mulw (rd rs1 rs2 : RegIdx)
  /-- DIVW (R248) -/
  | divw (rd rs1 rs2 : RegIdx)
  /-- DIVUW (R249) -/
  | divuw (rd rs1 rs2 : RegIdx)
  /-- REMW (R250) -/
  | remw (rd rs1 rs2 : RegIdx)
  /-- REMUW (R251) -/
  | remuw (rd rs1 rs2 : RegIdx)
  -- OP-IMM and OP-IMM-32 (43_op_imm.md)
  /-- ADDI (R261) -/
  | addi (rd rs1 : RegIdx) (imm : BitVec 12)
  /-- SLTI (R262) -/
  | slti (rd rs1 : RegIdx) (imm : BitVec 12)
  /-- SLTIU (R263) -/
  | sltiu (rd rs1 : RegIdx) (imm : BitVec 12)
  /-- XORI (R264) -/
  | xori (rd rs1 : RegIdx) (imm : BitVec 12)
  /-- ORI (R265) -/
  | ori (rd rs1 : RegIdx) (imm : BitVec 12)
  /-- ANDI (R266) -/
  | andi (rd rs1 : RegIdx) (imm : BitVec 12)
  /-- SLLI (R267) -/
  | slli (rd rs1 : RegIdx) (shamt : BitVec 6)
  /-- SRLI (R268) -/
  | srli (rd rs1 : RegIdx) (shamt : BitVec 6)
  /-- SRAI (R269) -/
  | srai (rd rs1 : RegIdx) (shamt : BitVec 6)
  /-- ADDIW (R270) -/
  | addiw (rd rs1 : RegIdx) (imm : BitVec 12)
  /-- SLLIW (R271) -/
  | slliw (rd rs1 : RegIdx) (shamt : BitVec 5)
  /-- SRLIW (R272) -/
  | srliw (rd rs1 : RegIdx) (shamt : BitVec 5)
  /-- SRAIW (R273) -/
  | sraiw (rd rs1 : RegIdx) (shamt : BitVec 5)
  -- Upper immediates (44_lui_auipc.md)
  /-- LUI (R290) -/
  | lui (rd : RegIdx) (imm20 : BitVec 20)
  /-- AUIPC (R291) -/
  | auipc (rd : RegIdx) (imm20 : BitVec 20)
  -- Jumps and branches (45_jump_branch.md)
  /-- JAL (R302) -/
  | jal (rd : RegIdx) (offset : BitVec 21)
  /-- JALR (R303) -/
  | jalr (rd rs1 : RegIdx) (imm : BitVec 12)
  /-- BEQ (R305) -/
  | beq (rs1 rs2 : RegIdx) (offset : BitVec 13)
  /-- BNE (R306) -/
  | bne (rs1 rs2 : RegIdx) (offset : BitVec 13)
  /-- BLT (R307) -/
  | blt (rs1 rs2 : RegIdx) (offset : BitVec 13)
  /-- BGE (R308) -/
  | bge (rs1 rs2 : RegIdx) (offset : BitVec 13)
  /-- BLTU (R309) -/
  | bltu (rs1 rs2 : RegIdx) (offset : BitVec 13)
  /-- BGEU (R310) -/
  | bgeu (rs1 rs2 : RegIdx) (offset : BitVec 13)
  -- Loads, stores, fences (46_load_store_fence.md)
  /-- LB (R322) -/
  | lb (rd rs1 : RegIdx) (imm : BitVec 12)
  /-- LH (R323) -/
  | lh (rd rs1 : RegIdx) (imm : BitVec 12)
  /-- LW (R324) -/
  | lw (rd rs1 : RegIdx) (imm : BitVec 12)
  /-- LD (R325) -/
  | ld (rd rs1 : RegIdx) (imm : BitVec 12)
  /-- LBU (R326) -/
  | lbu (rd rs1 : RegIdx) (imm : BitVec 12)
  /-- LHU (R327) -/
  | lhu (rd rs1 : RegIdx) (imm : BitVec 12)
  /-- LWU (R328) -/
  | lwu (rd rs1 : RegIdx) (imm : BitVec 12)
  /-- SB (R330) -/
  | sb (rs1 rs2 : RegIdx) (imm : BitVec 12)
  /-- SH (R331) -/
  | sh (rs1 rs2 : RegIdx) (imm : BitVec 12)
  /-- SW (R332) -/
  | sw (rs1 rs2 : RegIdx) (imm : BitVec 12)
  /-- SD (R333) -/
  | sd (rs1 rs2 : RegIdx) (imm : BitVec 12)
  /-- FENCE (R340) -/
  | fence (fm pred succ : BitVec 4) (rs1 rd : RegIdx)
  /-- FENCE.I (R341) -/
  | fenceI (fm pred succ : BitVec 4) (rs1 rd : RegIdx)
  -- SYSTEM (47_system.md)
  /-- CSRRW (R351) -/
  | csrrw (rd : RegIdx) (csr : CsrIdx) (rs1 : RegIdx)
  /-- CSRRS (R352) -/
  | csrrs (rd : RegIdx) (csr : CsrIdx) (rs1 : RegIdx)
  /-- CSRRC (R353) -/
  | csrrc (rd : RegIdx) (csr : CsrIdx) (rs1 : RegIdx)
  /-- CSRRWI (R354) -/
  | csrrwi (rd : RegIdx) (csr : CsrIdx) (zimm : BitVec 5)
  /-- CSRRSI (R355) -/
  | csrrsi (rd : RegIdx) (csr : CsrIdx) (zimm : BitVec 5)
  /-- CSRRCI (R356) -/
  | csrrci (rd : RegIdx) (csr : CsrIdx) (zimm : BitVec 5)
  /-- ECALL (R360) -/
  | ecall
  /-- MRET (R361) -/
  | mret
  /-- WFI (R362; always raises) -/
  | wfi
  -- AMO (48_amo.md)
  /-- AMOADD.W (R384) -/
  | amoaddW (aq rl : Bool) (rd rs1 rs2 : RegIdx)
  /-- AMOXOR.W (R385) -/
  | amoxorW (aq rl : Bool) (rd rs1 rs2 : RegIdx)
  /-- AMOAND.W (R386) -/
  | amoandW (aq rl : Bool) (rd rs1 rs2 : RegIdx)
  /-- AMOOR.W (R387) -/
  | amoorW (aq rl : Bool) (rd rs1 rs2 : RegIdx)
  /-- AMOMIN.W (R388) -/
  | amominW (aq rl : Bool) (rd rs1 rs2 : RegIdx)
  /-- AMOMAX.W (R389) -/
  | amomaxW (aq rl : Bool) (rd rs1 rs2 : RegIdx)
  /-- AMOMINU.W (R390) -/
  | amominuW (aq rl : Bool) (rd rs1 rs2 : RegIdx)
  /-- AMOMAXU.W (R391) -/
  | amomaxuW (aq rl : Bool) (rd rs1 rs2 : RegIdx)
  /-- AMOADD.D (R392) -/
  | amoaddD (aq rl : Bool) (rd rs1 rs2 : RegIdx)
  /-- AMOXOR.D (R393) -/
  | amoxorD (aq rl : Bool) (rd rs1 rs2 : RegIdx)
  /-- AMOAND.D (R394) -/
  | amoandD (aq rl : Bool) (rd rs1 rs2 : RegIdx)
  /-- AMOOR.D (R395) -/
  | amoorD (aq rl : Bool) (rd rs1 rs2 : RegIdx)
  /-- AMOMIN.D (R396) -/
  | amominD (aq rl : Bool) (rd rs1 rs2 : RegIdx)
  /-- AMOMAX.D (R397) -/
  | amomaxD (aq rl : Bool) (rd rs1 rs2 : RegIdx)
  /-- AMOMINU.D (R398) -/
  | amominuD (aq rl : Bool) (rd rs1 rs2 : RegIdx)
  /-- AMOMAXU.D (R399) -/
  | amomaxuD (aq rl : Bool) (rd rs1 rs2 : RegIdx)
  /-- LR.W (R400; always raises) -/
  | lrW (aq rl : Bool) (rd rs1 rs2 : RegIdx)
  /-- LR.D (R400; always raises) -/
  | lrD (aq rl : Bool) (rd rs1 rs2 : RegIdx)
  /-- SC.W (R400; always raises) -/
  | scW (aq rl : Bool) (rd rs1 rs2 : RegIdx)
  /-- SC.D (R400; always raises) -/
  | scD (aq rl : Bool) (rd rs1 rs2 : RegIdx)
  /-- AMOSWAP.W (R401; always raises) -/
  | amoswapW (aq rl : Bool) (rd rs1 rs2 : RegIdx)
  /-- AMOSWAP.D (R401; always raises) -/
  | amoswapD (aq rl : Bool) (rd rs1 rs2 : RegIdx)
  deriving DecidableEq, Repr

end Sys2Proof
end

