-- ==== Sys2Proof/WellFormed.lean ====
section
/-! DEFINITION. WellFormed.lean: the terms of `Instr` that stand for a word. The two checks: a branch offset has bit 0 = 0
(30_encoding.md R152), and so has a JAL offset (R154). Every other field may hold any value of its width. -/

namespace Sys2Proof

/-- Bit 0 of a B-type offset is always 0 (30_encoding.md R152). -/
def branchOffsetOk (offset : BitVec 13) : Bool := !offset.getLsbD 0

/-- Bit 0 of a J-type offset is always 0 (30_encoding.md R154). -/
def jumpOffsetOk (offset : BitVec 21) : Bool := !offset.getLsbD 0

/-- Whether a term stands for an instruction word. -/
def Instr.wf : Instr → Bool
  | .add _ _ _ => true
  | .sub _ _ _ => true
  | .sll _ _ _ => true
  | .slt _ _ _ => true
  | .sltu _ _ _ => true
  | .xor _ _ _ => true
  | .srl _ _ _ => true
  | .sra _ _ _ => true
  | .or _ _ _ => true
  | .and _ _ _ => true
  | .mul _ _ _ => true
  | .mulh _ _ _ => true
  | .mulhsu _ _ _ => true
  | .mulhu _ _ _ => true
  | .div _ _ _ => true
  | .divu _ _ _ => true
  | .rem _ _ _ => true
  | .remu _ _ _ => true
  | .addw _ _ _ => true
  | .subw _ _ _ => true
  | .sllw _ _ _ => true
  | .srlw _ _ _ => true
  | .sraw _ _ _ => true
  | .mulw _ _ _ => true
  | .divw _ _ _ => true
  | .divuw _ _ _ => true
  | .remw _ _ _ => true
  | .remuw _ _ _ => true
  | .addi _ _ _ => true
  | .slti _ _ _ => true
  | .sltiu _ _ _ => true
  | .xori _ _ _ => true
  | .ori _ _ _ => true
  | .andi _ _ _ => true
  | .slli _ _ _ => true
  | .srli _ _ _ => true
  | .srai _ _ _ => true
  | .addiw _ _ _ => true
  | .slliw _ _ _ => true
  | .srliw _ _ _ => true
  | .sraiw _ _ _ => true
  | .lui _ _ => true
  | .auipc _ _ => true
  | .jal _ offset => jumpOffsetOk offset
  | .jalr _ _ _ => true
  | .beq _ _ offset => branchOffsetOk offset
  | .bne _ _ offset => branchOffsetOk offset
  | .blt _ _ offset => branchOffsetOk offset
  | .bge _ _ offset => branchOffsetOk offset
  | .bltu _ _ offset => branchOffsetOk offset
  | .bgeu _ _ offset => branchOffsetOk offset
  | .lb _ _ _ => true
  | .lh _ _ _ => true
  | .lw _ _ _ => true
  | .ld _ _ _ => true
  | .lbu _ _ _ => true
  | .lhu _ _ _ => true
  | .lwu _ _ _ => true
  | .sb _ _ _ => true
  | .sh _ _ _ => true
  | .sw _ _ _ => true
  | .sd _ _ _ => true
  | .fence _ _ _ _ _ => true
  | .fenceI _ _ _ _ _ => true
  | .csrrw _ _ _ => true
  | .csrrs _ _ _ => true
  | .csrrc _ _ _ => true
  | .csrrwi _ _ _ => true
  | .csrrsi _ _ _ => true
  | .csrrci _ _ _ => true
  | .ecall => true
  | .mret => true
  | .wfi => true
  | .amoaddW _ _ _ _ _ => true
  | .amoxorW _ _ _ _ _ => true
  | .amoandW _ _ _ _ _ => true
  | .amoorW _ _ _ _ _ => true
  | .amominW _ _ _ _ _ => true
  | .amomaxW _ _ _ _ _ => true
  | .amominuW _ _ _ _ _ => true
  | .amomaxuW _ _ _ _ _ => true
  | .amoaddD _ _ _ _ _ => true
  | .amoxorD _ _ _ _ _ => true
  | .amoandD _ _ _ _ _ => true
  | .amoorD _ _ _ _ _ => true
  | .amominD _ _ _ _ _ => true
  | .amomaxD _ _ _ _ _ => true
  | .amominuD _ _ _ _ _ => true
  | .amomaxuD _ _ _ _ _ => true
  | .lrW _ _ _ _ _ => true
  | .lrD _ _ _ _ _ => true
  | .scW _ _ _ _ _ => true
  | .scD _ _ _ _ _ => true
  | .amoswapW _ _ _ _ _ => true
  | .amoswapD _ _ _ _ _ => true

end Sys2Proof
end

