-- ==== Sys2Proof/Decode.lean ====
section
/-! DEFINITION. Decode.lean: the decoder, total on any bytes, and after it the encoder. Field positions and immediate layouts
are 30_encoding.md R144 to R157; the dispatch is R160 to R171 and spec/opcode_table.json; a word that matches no row is rejected
(R175). Every opcode, funct and full-word number stands in this file only (00_scope.md R15; log entry 5). -/

namespace Sys2Proof

/-! ## Numbers (30_encoding.md R160, R161) -/

def Opc.op : BitVec 7 := 0b0110011#7
def Opc.op32 : BitVec 7 := 0b0111011#7
def Opc.opImm : BitVec 7 := 0b0010011#7
def Opc.opImm32 : BitVec 7 := 0b0011011#7
def Opc.lui : BitVec 7 := 0b0110111#7
def Opc.auipc : BitVec 7 := 0b0010111#7
def Opc.jal : BitVec 7 := 0b1101111#7
def Opc.jalr : BitVec 7 := 0b1100111#7
def Opc.branch : BitVec 7 := 0b1100011#7
def Opc.load : BitVec 7 := 0b0000011#7
def Opc.store : BitVec 7 := 0b0100011#7
def Opc.miscMem : BitVec 7 := 0b0001111#7
def Opc.system : BitVec 7 := 0b1110011#7
def Opc.amo : BitVec 7 := 0b0101111#7

def Opc.mretWord : Word32 := 0x30200073#32
def Opc.ecallWord : Word32 := 0x00000073#32
def Opc.wfiWord : Word32 := 0x10500073#32

/-! ## Fields (30_encoding.md R144, R145, R150 to R157) -/

/-- `insn[6:0]` (R144) -/
def Enc.opcode (w : Word32) : BitVec 7 := w.extractLsb' 0 7
/-- `insn[11:7]` (R144) -/
def Enc.rd (w : Word32) : BitVec 5 := w.extractLsb' 7 5
/-- `insn[14:12]` (R144) -/
def Enc.funct3 (w : Word32) : BitVec 3 := w.extractLsb' 12 3
/-- `insn[19:15]` (R144); the `zimm` of the immediate CSR forms (R156) -/
def Enc.rs1 (w : Word32) : BitVec 5 := w.extractLsb' 15 5
/-- `insn[24:20]` (R144); the `shamt` of the W shifts (R155) -/
def Enc.rs2 (w : Word32) : BitVec 5 := w.extractLsb' 20 5
/-- `insn[31:25]` (R144) -/
def Enc.funct7 (w : Word32) : BitVec 7 := w.extractLsb' 25 7
/-- `insn[31:26]` (R145, I-shift64) -/
def Enc.funct6 (w : Word32) : BitVec 6 := w.extractLsb' 26 6
/-- `insn[31:27]` (R157) -/
def Enc.funct5 (w : Word32) : BitVec 5 := w.extractLsb' 27 5
/-- `insn[25:20]`, the amount of the 64-bit immediate shifts (R155) -/
def Enc.shamt6 (w : Word32) : BitVec 6 := w.extractLsb' 20 6
/-- `insn[31:20]`, the I-type immediate field (R150) -/
def Enc.immI (w : Word32) : BitVec 12 := w.extractLsb' 20 12
/-- `insn[31:20]`, the CSR index (R156) -/
def Enc.csr (w : Word32) : BitVec 12 := w.extractLsb' 20 12
/-- `insn[31:28]` (R145, I-fence) -/
def Enc.fm (w : Word32) : BitVec 4 := w.extractLsb' 28 4
/-- `insn[27:24]` (R145, I-fence) -/
def Enc.pred (w : Word32) : BitVec 4 := w.extractLsb' 24 4
/-- `insn[23:20]` (R145, I-fence) -/
def Enc.succ (w : Word32) : BitVec 4 := w.extractLsb' 20 4
/-- `insn[31:12]`, the U-type field (R153) -/
def Enc.imm20 (w : Word32) : BitVec 20 := w.extractLsb' 12 20
/-- `insn[26]` (R157) -/
def Enc.aq (w : Word32) : Bool := w.getLsbD 26
/-- `insn[25]` (R157) -/
def Enc.rl (w : Word32) : Bool := w.getLsbD 25
/-- The S-type immediate field: `insn[31:25]` in position 11..5, `insn[11:7]` in position 4..0 (R151). -/
def Enc.immS (w : Word32) : BitVec 12 := Enc.funct7 w ++ Enc.rd w
/-- The B-type offset: `insn[31]`, `insn[7]`, `insn[30:25]`, `insn[11:8]`, 0 (R152). -/
def Enc.immB (w : Word32) : BitVec 13 :=
  w.extractLsb' 31 1 ++ w.extractLsb' 7 1 ++ w.extractLsb' 25 6 ++ w.extractLsb' 8 4 ++ 0#1
/-- The J-type offset: `insn[31]`, `insn[19:12]`, `insn[20]`, `insn[30:21]`, 0 (R154). -/
def Enc.immJ (w : Word32) : BitVec 21 :=
  w.extractLsb' 31 1 ++ w.extractLsb' 12 8 ++ w.extractLsb' 20 1 ++ w.extractLsb' 21 10 ++ 0#1

/-! ## The decoder -/

/-- OP: the pair (funct7, funct3) selects (30_encoding.md R162). -/
def decodeOp (w : Word32) : Option Instr :=
  match Enc.funct7 w, Enc.funct3 w with
  | 0b0000000#7, 0b000#3 => some (.add (Enc.rd w) (Enc.rs1 w) (Enc.rs2 w))
  | 0b0100000#7, 0b000#3 => some (.sub (Enc.rd w) (Enc.rs1 w) (Enc.rs2 w))
  | 0b0000000#7, 0b001#3 => some (.sll (Enc.rd w) (Enc.rs1 w) (Enc.rs2 w))
  | 0b0000000#7, 0b010#3 => some (.slt (Enc.rd w) (Enc.rs1 w) (Enc.rs2 w))
  | 0b0000000#7, 0b011#3 => some (.sltu (Enc.rd w) (Enc.rs1 w) (Enc.rs2 w))
  | 0b0000000#7, 0b100#3 => some (.xor (Enc.rd w) (Enc.rs1 w) (Enc.rs2 w))
  | 0b0000000#7, 0b101#3 => some (.srl (Enc.rd w) (Enc.rs1 w) (Enc.rs2 w))
  | 0b0100000#7, 0b101#3 => some (.sra (Enc.rd w) (Enc.rs1 w) (Enc.rs2 w))
  | 0b0000000#7, 0b110#3 => some (.or (Enc.rd w) (Enc.rs1 w) (Enc.rs2 w))
  | 0b0000000#7, 0b111#3 => some (.and (Enc.rd w) (Enc.rs1 w) (Enc.rs2 w))
  | 0b0000001#7, 0b000#3 => some (.mul (Enc.rd w) (Enc.rs1 w) (Enc.rs2 w))
  | 0b0000001#7, 0b001#3 => some (.mulh (Enc.rd w) (Enc.rs1 w) (Enc.rs2 w))
  | 0b0000001#7, 0b010#3 => some (.mulhsu (Enc.rd w) (Enc.rs1 w) (Enc.rs2 w))
  | 0b0000001#7, 0b011#3 => some (.mulhu (Enc.rd w) (Enc.rs1 w) (Enc.rs2 w))
  | 0b0000001#7, 0b100#3 => some (.div (Enc.rd w) (Enc.rs1 w) (Enc.rs2 w))
  | 0b0000001#7, 0b101#3 => some (.divu (Enc.rd w) (Enc.rs1 w) (Enc.rs2 w))
  | 0b0000001#7, 0b110#3 => some (.rem (Enc.rd w) (Enc.rs1 w) (Enc.rs2 w))
  | 0b0000001#7, 0b111#3 => some (.remu (Enc.rd w) (Enc.rs1 w) (Enc.rs2 w))
  | _, _ => none

/-- OP-32: the pair (funct7, funct3) selects (30_encoding.md R163). -/
def decodeOp32 (w : Word32) : Option Instr :=
  match Enc.funct7 w, Enc.funct3 w with
  | 0b0000000#7, 0b000#3 => some (.addw (Enc.rd w) (Enc.rs1 w) (Enc.rs2 w))
  | 0b0100000#7, 0b000#3 => some (.subw (Enc.rd w) (Enc.rs1 w) (Enc.rs2 w))
  | 0b0000000#7, 0b001#3 => some (.sllw (Enc.rd w) (Enc.rs1 w) (Enc.rs2 w))
  | 0b0000000#7, 0b101#3 => some (.srlw (Enc.rd w) (Enc.rs1 w) (Enc.rs2 w))
  | 0b0100000#7, 0b101#3 => some (.sraw (Enc.rd w) (Enc.rs1 w) (Enc.rs2 w))
  | 0b0000001#7, 0b000#3 => some (.mulw (Enc.rd w) (Enc.rs1 w) (Enc.rs2 w))
  | 0b0000001#7, 0b100#3 => some (.divw (Enc.rd w) (Enc.rs1 w) (Enc.rs2 w))
  | 0b0000001#7, 0b101#3 => some (.divuw (Enc.rd w) (Enc.rs1 w) (Enc.rs2 w))
  | 0b0000001#7, 0b110#3 => some (.remw (Enc.rd w) (Enc.rs1 w) (Enc.rs2 w))
  | 0b0000001#7, 0b111#3 => some (.remuw (Enc.rd w) (Enc.rs1 w) (Enc.rs2 w))
  | _, _ => none

/-- The shifts of OP-IMM: insn[31:26] and funct3 select (30_encoding.md R164). -/
def decodeShift64 (w : Word32) : Option Instr :=
  match Enc.funct6 w, Enc.funct3 w with
  | 0b000000#6, 0b001#3 => some (.slli (Enc.rd w) (Enc.rs1 w) (Enc.shamt6 w))
  | 0b000000#6, 0b101#3 => some (.srli (Enc.rd w) (Enc.rs1 w) (Enc.shamt6 w))
  | 0b010000#6, 0b101#3 => some (.srai (Enc.rd w) (Enc.rs1 w) (Enc.shamt6 w))
  | _, _ => none

/-- OP-IMM: funct3 selects, and for the shifts (funct3 001 and 101) insn[31:26] as well (30_encoding.md R164). -/
def decodeOpImm (w : Word32) : Option Instr :=
  match Enc.funct3 w with
  | 0b000#3 => some (.addi (Enc.rd w) (Enc.rs1 w) (Enc.immI w))
  | 0b010#3 => some (.slti (Enc.rd w) (Enc.rs1 w) (Enc.immI w))
  | 0b011#3 => some (.sltiu (Enc.rd w) (Enc.rs1 w) (Enc.immI w))
  | 0b100#3 => some (.xori (Enc.rd w) (Enc.rs1 w) (Enc.immI w))
  | 0b110#3 => some (.ori (Enc.rd w) (Enc.rs1 w) (Enc.immI w))
  | 0b111#3 => some (.andi (Enc.rd w) (Enc.rs1 w) (Enc.immI w))
  | _ => decodeShift64 w

/-- The shifts of OP-IMM-32: funct7 and funct3 select, so that insn[25] = 1 matches no row (30_encoding.md R165). -/
def decodeShift32 (w : Word32) : Option Instr :=
  match Enc.funct7 w, Enc.funct3 w with
  | 0b0000000#7, 0b001#3 => some (.slliw (Enc.rd w) (Enc.rs1 w) (Enc.rs2 w))
  | 0b0000000#7, 0b101#3 => some (.srliw (Enc.rd w) (Enc.rs1 w) (Enc.rs2 w))
  | 0b0100000#7, 0b101#3 => some (.sraiw (Enc.rd w) (Enc.rs1 w) (Enc.rs2 w))
  | _, _ => none

/-- OP-IMM-32: funct3 selects, and for the W shifts funct7 as well, so that insn[25] = 1 matches no row (30_encoding.md R165). -/
def decodeOpImm32 (w : Word32) : Option Instr :=
  match Enc.funct3 w with
  | 0b000#3 => some (.addiw (Enc.rd w) (Enc.rs1 w) (Enc.immI w))
  | _ => decodeShift32 w

/-- LOAD: funct3 selects; 111 is illegal (30_encoding.md R166). -/
def decodeLoad (w : Word32) : Option Instr :=
  match Enc.funct3 w with
  | 0b000#3 => some (.lb (Enc.rd w) (Enc.rs1 w) (Enc.immI w))
  | 0b001#3 => some (.lh (Enc.rd w) (Enc.rs1 w) (Enc.immI w))
  | 0b010#3 => some (.lw (Enc.rd w) (Enc.rs1 w) (Enc.immI w))
  | 0b011#3 => some (.ld (Enc.rd w) (Enc.rs1 w) (Enc.immI w))
  | 0b100#3 => some (.lbu (Enc.rd w) (Enc.rs1 w) (Enc.immI w))
  | 0b101#3 => some (.lhu (Enc.rd w) (Enc.rs1 w) (Enc.immI w))
  | 0b110#3 => some (.lwu (Enc.rd w) (Enc.rs1 w) (Enc.immI w))
  | _ => none

/-- STORE: funct3 selects; 100 to 111 are illegal (30_encoding.md R166). -/
def decodeStore (w : Word32) : Option Instr :=
  match Enc.funct3 w with
  | 0b000#3 => some (.sb (Enc.rs1 w) (Enc.rs2 w) (Enc.immS w))
  | 0b001#3 => some (.sh (Enc.rs1 w) (Enc.rs2 w) (Enc.immS w))
  | 0b010#3 => some (.sw (Enc.rs1 w) (Enc.rs2 w) (Enc.immS w))
  | 0b011#3 => some (.sd (Enc.rs1 w) (Enc.rs2 w) (Enc.immS w))
  | _ => none

/-- BRANCH: funct3 selects; 010 and 011 are illegal (30_encoding.md R167). -/
def decodeBranch (w : Word32) : Option Instr :=
  match Enc.funct3 w with
  | 0b000#3 => some (.beq (Enc.rs1 w) (Enc.rs2 w) (Enc.immB w))
  | 0b001#3 => some (.bne (Enc.rs1 w) (Enc.rs2 w) (Enc.immB w))
  | 0b100#3 => some (.blt (Enc.rs1 w) (Enc.rs2 w) (Enc.immB w))
  | 0b101#3 => some (.bge (Enc.rs1 w) (Enc.rs2 w) (Enc.immB w))
  | 0b110#3 => some (.bltu (Enc.rs1 w) (Enc.rs2 w) (Enc.immB w))
  | 0b111#3 => some (.bgeu (Enc.rs1 w) (Enc.rs2 w) (Enc.immB w))
  | _ => none

/-- MISC-MEM: funct3 000 and 001, every other field ignored; the rest is illegal (30_encoding.md R168). -/
def decodeMiscMem (w : Word32) : Option Instr :=
  match Enc.funct3 w with
  | 0b000#3 => some (.fence (Enc.fm w) (Enc.pred w) (Enc.succ w) (Enc.rs1 w) (Enc.rd w))
  | 0b001#3 => some (.fenceI (Enc.fm w) (Enc.pred w) (Enc.succ w) (Enc.rs1 w) (Enc.rd w))
  | _ => none

/-- SYSTEM: the six CSR rows; funct3 000 (outside the three full words) and 100 are illegal (30_encoding.md R169). -/
def decodeSystem (w : Word32) : Option Instr :=
  match Enc.funct3 w with
  | 0b001#3 => some (.csrrw (Enc.rd w) (Enc.csr w) (Enc.rs1 w))
  | 0b010#3 => some (.csrrs (Enc.rd w) (Enc.csr w) (Enc.rs1 w))
  | 0b011#3 => some (.csrrc (Enc.rd w) (Enc.csr w) (Enc.rs1 w))
  | 0b101#3 => some (.csrrwi (Enc.rd w) (Enc.csr w) (Enc.rs1 w))
  | 0b110#3 => some (.csrrsi (Enc.rd w) (Enc.csr w) (Enc.rs1 w))
  | 0b111#3 => some (.csrrci (Enc.rd w) (Enc.csr w) (Enc.rs1 w))
  | _ => none

/-- JALR requires funct3 000 (30_encoding.md R171). -/
def decodeJalr (w : Word32) : Option Instr :=
  match Enc.funct3 w with
  | 0b000#3 => some (.jalr (Enc.rd w) (Enc.rs1 w) (Enc.immI w))
  | _ => none

/-- AMO: funct5 and the width funct3 select; aq and rl are free (30_encoding.md R170). -/
def decodeAmo (w : Word32) : Option Instr :=
  match Enc.funct5 w, Enc.funct3 w with
  | 0b00000#5, 0b010#3 => some (.amoaddW (Enc.aq w) (Enc.rl w) (Enc.rd w) (Enc.rs1 w) (Enc.rs2 w))
  | 0b00100#5, 0b010#3 => some (.amoxorW (Enc.aq w) (Enc.rl w) (Enc.rd w) (Enc.rs1 w) (Enc.rs2 w))
  | 0b01100#5, 0b010#3 => some (.amoandW (Enc.aq w) (Enc.rl w) (Enc.rd w) (Enc.rs1 w) (Enc.rs2 w))
  | 0b01000#5, 0b010#3 => some (.amoorW (Enc.aq w) (Enc.rl w) (Enc.rd w) (Enc.rs1 w) (Enc.rs2 w))
  | 0b10000#5, 0b010#3 => some (.amominW (Enc.aq w) (Enc.rl w) (Enc.rd w) (Enc.rs1 w) (Enc.rs2 w))
  | 0b10100#5, 0b010#3 => some (.amomaxW (Enc.aq w) (Enc.rl w) (Enc.rd w) (Enc.rs1 w) (Enc.rs2 w))
  | 0b11000#5, 0b010#3 => some (.amominuW (Enc.aq w) (Enc.rl w) (Enc.rd w) (Enc.rs1 w) (Enc.rs2 w))
  | 0b11100#5, 0b010#3 => some (.amomaxuW (Enc.aq w) (Enc.rl w) (Enc.rd w) (Enc.rs1 w) (Enc.rs2 w))
  | 0b00000#5, 0b011#3 => some (.amoaddD (Enc.aq w) (Enc.rl w) (Enc.rd w) (Enc.rs1 w) (Enc.rs2 w))
  | 0b00100#5, 0b011#3 => some (.amoxorD (Enc.aq w) (Enc.rl w) (Enc.rd w) (Enc.rs1 w) (Enc.rs2 w))
  | 0b01100#5, 0b011#3 => some (.amoandD (Enc.aq w) (Enc.rl w) (Enc.rd w) (Enc.rs1 w) (Enc.rs2 w))
  | 0b01000#5, 0b011#3 => some (.amoorD (Enc.aq w) (Enc.rl w) (Enc.rd w) (Enc.rs1 w) (Enc.rs2 w))
  | 0b10000#5, 0b011#3 => some (.amominD (Enc.aq w) (Enc.rl w) (Enc.rd w) (Enc.rs1 w) (Enc.rs2 w))
  | 0b10100#5, 0b011#3 => some (.amomaxD (Enc.aq w) (Enc.rl w) (Enc.rd w) (Enc.rs1 w) (Enc.rs2 w))
  | 0b11000#5, 0b011#3 => some (.amominuD (Enc.aq w) (Enc.rl w) (Enc.rd w) (Enc.rs1 w) (Enc.rs2 w))
  | 0b11100#5, 0b011#3 => some (.amomaxuD (Enc.aq w) (Enc.rl w) (Enc.rd w) (Enc.rs1 w) (Enc.rs2 w))
  | 0b00010#5, 0b010#3 => some (.lrW (Enc.aq w) (Enc.rl w) (Enc.rd w) (Enc.rs1 w) (Enc.rs2 w))
  | 0b00010#5, 0b011#3 => some (.lrD (Enc.aq w) (Enc.rl w) (Enc.rd w) (Enc.rs1 w) (Enc.rs2 w))
  | 0b00011#5, 0b010#3 => some (.scW (Enc.aq w) (Enc.rl w) (Enc.rd w) (Enc.rs1 w) (Enc.rs2 w))
  | 0b00011#5, 0b011#3 => some (.scD (Enc.aq w) (Enc.rl w) (Enc.rd w) (Enc.rs1 w) (Enc.rs2 w))
  | 0b00001#5, 0b010#3 => some (.amoswapW (Enc.aq w) (Enc.rl w) (Enc.rd w) (Enc.rs1 w) (Enc.rs2 w))
  | 0b00001#5, 0b011#3 => some (.amoswapD (Enc.aq w) (Enc.rl w) (Enc.rd w) (Enc.rs1 w) (Enc.rs2 w))
  | _, _ => none

/-- Dispatch on the major opcode; every opcode not listed matches no row (30_encoding.md R161). LUI, AUIPC and JAL have no
sub-opcode (R171). -/
def decodeOpcode (w : Word32) : Option Instr :=
  match Enc.opcode w with
  | 0b0000011#7 => decodeLoad w
  | 0b0001111#7 => decodeMiscMem w
  | 0b0010011#7 => decodeOpImm w
  | 0b0010111#7 => some (.auipc (Enc.rd w) (Enc.imm20 w))
  | 0b0011011#7 => decodeOpImm32 w
  | 0b0100011#7 => decodeStore w
  | 0b0101111#7 => decodeAmo w
  | 0b0110011#7 => decodeOp w
  | 0b0110111#7 => some (.lui (Enc.rd w) (Enc.imm20 w))
  | 0b0111011#7 => decodeOp32 w
  | 0b1100011#7 => decodeBranch w
  | 0b1100111#7 => decodeJalr w
  | 0b1101111#7 => some (.jal (Enc.rd w) (Enc.immJ w))
  | 0b1110011#7 => decodeSystem w
  | _ => none

/-- `Decode(insn)` (30_encoding.md R160): the three full-word patterns first, then the opcode families; `none` is a word that
matches no row, which the machine answers with IllegalInstruction (R175). -/
def decodeWord (w : Word32) : Option Instr :=
  if w = Opc.mretWord then some .mret
  else if w = Opc.ecallWord then some .ecall
  else if w = Opc.wfiWord then some .wfi
  else decodeOpcode w

/-- The only length test: the low two bits of the first halfword are 11 (30_encoding.md R141, R142). -/
def isUncompressed (h : BitVec 16) : Bool := h.extractLsb' 0 2 = 0b11#2

/-- Why bytes are no instruction. -/
inductive Reject where
  /-- fewer bytes than the instruction needs -/
  | truncated
  /-- a 16-bit encoding, which this hardware does not support (30_encoding.md R142) -/
  | compressed
  /-- a 32-bit word that matches no row (30_encoding.md R175) -/
  | noRow
  deriving DecidableEq, Repr

/-- The 32-bit word of four bytes, the byte at the lowest address in bits 7:0 (20_memory.md R99). -/
def wordOfBytes (b0 b1 b2 b3 : Byte) : Word32 := b3 ++ b2 ++ b1 ++ b0

/-- The decoder on bytes in address order: the length test on the first halfword, then the 32-bit word (30_encoding.md R141,
R160). It answers the instruction and the bytes after it. -/
def decode : List Byte → Except Reject (Instr × List Byte)
  | [] => .error .truncated
  | [_] => .error .truncated
  | b0 :: b1 :: rest =>
    if isUncompressed (b1 ++ b0) then
      match rest with
      | b2 :: b3 :: rest' =>
        match decodeWord (wordOfBytes b0 b1 b2 b3) with
        | some i => .ok (i, rest')
        | none => .error .noRow
      | _ => .error .truncated
    else .error .compressed

/-- The bytes of a word as the hardware stores them: little-endian (20_memory.md R99). -/
def bytesOfWord (w : Word32) : List Byte :=
  [w.extractLsb' 0 8, w.extractLsb' 8 8, w.extractLsb' 16 8, w.extractLsb' 24 8]

/-- The word of an opcode-table row whose `nbits` bits are `w`, every bit above `nbits` being 0. -/
def tableWord (nbits w : Nat) : Word32 := BitVec.ofNat 32 (w % 2 ^ nbits)

/-- What the decoder reads from the instruction whose bits are `w`, numbered as spec/opcode_table.json numbers them. -/
def decodeTableWord (nbits w : Nat) : Option Instr :=
  match decode (bytesOfWord (tableWord nbits w)) with
  | .ok (i, _) => some i
  | .error _ => none

/-! ## The encoder (formats: 30_encoding.md R145) -/

def Enc.rType (f7 : BitVec 7) (rs2 rs1 : RegIdx) (f3 : BitVec 3) (rd : RegIdx) (op : BitVec 7) : Word32 :=
  f7 ++ rs2 ++ rs1 ++ f3 ++ rd ++ op
def Enc.iType (imm : BitVec 12) (rs1 : RegIdx) (f3 : BitVec 3) (rd : RegIdx) (op : BitVec 7) : Word32 :=
  imm ++ rs1 ++ f3 ++ rd ++ op
def Enc.iShift64 (f6 : BitVec 6) (shamt : BitVec 6) (rs1 : RegIdx) (f3 : BitVec 3) (rd : RegIdx) (op : BitVec 7) : Word32 :=
  f6 ++ shamt ++ rs1 ++ f3 ++ rd ++ op
def Enc.iShift32 (f7 : BitVec 7) (shamt : BitVec 5) (rs1 : RegIdx) (f3 : BitVec 3) (rd : RegIdx) (op : BitVec 7) : Word32 :=
  f7 ++ shamt ++ rs1 ++ f3 ++ rd ++ op
def Enc.iCsr (csr : CsrIdx) (rs1 : RegIdx) (f3 : BitVec 3) (rd : RegIdx) (op : BitVec 7) : Word32 :=
  csr ++ rs1 ++ f3 ++ rd ++ op
def Enc.iFence (fm pred succ : BitVec 4) (rs1 : RegIdx) (f3 : BitVec 3) (rd : RegIdx) (op : BitVec 7) : Word32 :=
  fm ++ pred ++ succ ++ rs1 ++ f3 ++ rd ++ op
def Enc.sType (imm : BitVec 12) (rs2 rs1 : RegIdx) (f3 : BitVec 3) (op : BitVec 7) : Word32 :=
  imm.extractLsb' 5 7 ++ rs2 ++ rs1 ++ f3 ++ imm.extractLsb' 0 5 ++ op
def Enc.bType (offset : BitVec 13) (rs2 rs1 : RegIdx) (f3 : BitVec 3) (op : BitVec 7) : Word32 :=
  offset.extractLsb' 12 1 ++ offset.extractLsb' 5 6 ++ rs2 ++ rs1 ++ f3 ++ offset.extractLsb' 1 4 ++ offset.extractLsb' 11 1 ++ op
def Enc.uType (imm20 : BitVec 20) (rd : RegIdx) (op : BitVec 7) : Word32 := imm20 ++ rd ++ op
def Enc.jType (offset : BitVec 21) (rd : RegIdx) (op : BitVec 7) : Word32 :=
  offset.extractLsb' 20 1 ++ offset.extractLsb' 1 10 ++ offset.extractLsb' 11 1 ++ offset.extractLsb' 12 8 ++ rd ++ op
def Enc.aType (f5 : BitVec 5) (aq rl : Bool) (rs2 rs1 : RegIdx) (f3 : BitVec 3) (rd : RegIdx) (op : BitVec 7) : Word32 :=
  f5 ++ BitVec.ofBool aq ++ BitVec.ofBool rl ++ rs2 ++ rs1 ++ f3 ++ rd ++ op

/-- The word of a well-formed instruction, one arm per row of spec/opcode_table.json. -/
def encode : Instr → Word32
  | .add rd rs1 rs2 => Enc.rType 0b0000000#7 rs2 rs1 0b000#3 rd Opc.op
  | .sub rd rs1 rs2 => Enc.rType 0b0100000#7 rs2 rs1 0b000#3 rd Opc.op
  | .sll rd rs1 rs2 => Enc.rType 0b0000000#7 rs2 rs1 0b001#3 rd Opc.op
  | .slt rd rs1 rs2 => Enc.rType 0b0000000#7 rs2 rs1 0b010#3 rd Opc.op
  | .sltu rd rs1 rs2 => Enc.rType 0b0000000#7 rs2 rs1 0b011#3 rd Opc.op
  | .xor rd rs1 rs2 => Enc.rType 0b0000000#7 rs2 rs1 0b100#3 rd Opc.op
  | .srl rd rs1 rs2 => Enc.rType 0b0000000#7 rs2 rs1 0b101#3 rd Opc.op
  | .sra rd rs1 rs2 => Enc.rType 0b0100000#7 rs2 rs1 0b101#3 rd Opc.op
  | .or rd rs1 rs2 => Enc.rType 0b0000000#7 rs2 rs1 0b110#3 rd Opc.op
  | .and rd rs1 rs2 => Enc.rType 0b0000000#7 rs2 rs1 0b111#3 rd Opc.op
  | .mul rd rs1 rs2 => Enc.rType 0b0000001#7 rs2 rs1 0b000#3 rd Opc.op
  | .mulh rd rs1 rs2 => Enc.rType 0b0000001#7 rs2 rs1 0b001#3 rd Opc.op
  | .mulhsu rd rs1 rs2 => Enc.rType 0b0000001#7 rs2 rs1 0b010#3 rd Opc.op
  | .mulhu rd rs1 rs2 => Enc.rType 0b0000001#7 rs2 rs1 0b011#3 rd Opc.op
  | .div rd rs1 rs2 => Enc.rType 0b0000001#7 rs2 rs1 0b100#3 rd Opc.op
  | .divu rd rs1 rs2 => Enc.rType 0b0000001#7 rs2 rs1 0b101#3 rd Opc.op
  | .rem rd rs1 rs2 => Enc.rType 0b0000001#7 rs2 rs1 0b110#3 rd Opc.op
  | .remu rd rs1 rs2 => Enc.rType 0b0000001#7 rs2 rs1 0b111#3 rd Opc.op
  | .addw rd rs1 rs2 => Enc.rType 0b0000000#7 rs2 rs1 0b000#3 rd Opc.op32
  | .subw rd rs1 rs2 => Enc.rType 0b0100000#7 rs2 rs1 0b000#3 rd Opc.op32
  | .sllw rd rs1 rs2 => Enc.rType 0b0000000#7 rs2 rs1 0b001#3 rd Opc.op32
  | .srlw rd rs1 rs2 => Enc.rType 0b0000000#7 rs2 rs1 0b101#3 rd Opc.op32
  | .sraw rd rs1 rs2 => Enc.rType 0b0100000#7 rs2 rs1 0b101#3 rd Opc.op32
  | .mulw rd rs1 rs2 => Enc.rType 0b0000001#7 rs2 rs1 0b000#3 rd Opc.op32
  | .divw rd rs1 rs2 => Enc.rType 0b0000001#7 rs2 rs1 0b100#3 rd Opc.op32
  | .divuw rd rs1 rs2 => Enc.rType 0b0000001#7 rs2 rs1 0b101#3 rd Opc.op32
  | .remw rd rs1 rs2 => Enc.rType 0b0000001#7 rs2 rs1 0b110#3 rd Opc.op32
  | .remuw rd rs1 rs2 => Enc.rType 0b0000001#7 rs2 rs1 0b111#3 rd Opc.op32
  | .addi rd rs1 imm => Enc.iType imm rs1 0b000#3 rd Opc.opImm
  | .slti rd rs1 imm => Enc.iType imm rs1 0b010#3 rd Opc.opImm
  | .sltiu rd rs1 imm => Enc.iType imm rs1 0b011#3 rd Opc.opImm
  | .xori rd rs1 imm => Enc.iType imm rs1 0b100#3 rd Opc.opImm
  | .ori rd rs1 imm => Enc.iType imm rs1 0b110#3 rd Opc.opImm
  | .andi rd rs1 imm => Enc.iType imm rs1 0b111#3 rd Opc.opImm
  | .slli rd rs1 shamt => Enc.iShift64 0b000000#6 shamt rs1 0b001#3 rd Opc.opImm
  | .srli rd rs1 shamt => Enc.iShift64 0b000000#6 shamt rs1 0b101#3 rd Opc.opImm
  | .srai rd rs1 shamt => Enc.iShift64 0b010000#6 shamt rs1 0b101#3 rd Opc.opImm
  | .addiw rd rs1 imm => Enc.iType imm rs1 0b000#3 rd Opc.opImm32
  | .slliw rd rs1 shamt => Enc.iShift32 0b0000000#7 shamt rs1 0b001#3 rd Opc.opImm32
  | .srliw rd rs1 shamt => Enc.iShift32 0b0000000#7 shamt rs1 0b101#3 rd Opc.opImm32
  | .sraiw rd rs1 shamt => Enc.iShift32 0b0100000#7 shamt rs1 0b101#3 rd Opc.opImm32
  | .lui rd imm20 => Enc.uType imm20 rd Opc.lui
  | .auipc rd imm20 => Enc.uType imm20 rd Opc.auipc
  | .jal rd offset => Enc.jType offset rd Opc.jal
  | .jalr rd rs1 imm => Enc.iType imm rs1 0b000#3 rd Opc.jalr
  | .beq rs1 rs2 offset => Enc.bType offset rs2 rs1 0b000#3 Opc.branch
  | .bne rs1 rs2 offset => Enc.bType offset rs2 rs1 0b001#3 Opc.branch
  | .blt rs1 rs2 offset => Enc.bType offset rs2 rs1 0b100#3 Opc.branch
  | .bge rs1 rs2 offset => Enc.bType offset rs2 rs1 0b101#3 Opc.branch
  | .bltu rs1 rs2 offset => Enc.bType offset rs2 rs1 0b110#3 Opc.branch
  | .bgeu rs1 rs2 offset => Enc.bType offset rs2 rs1 0b111#3 Opc.branch
  | .lb rd rs1 imm => Enc.iType imm rs1 0b000#3 rd Opc.load
  | .lh rd rs1 imm => Enc.iType imm rs1 0b001#3 rd Opc.load
  | .lw rd rs1 imm => Enc.iType imm rs1 0b010#3 rd Opc.load
  | .ld rd rs1 imm => Enc.iType imm rs1 0b011#3 rd Opc.load
  | .lbu rd rs1 imm => Enc.iType imm rs1 0b100#3 rd Opc.load
  | .lhu rd rs1 imm => Enc.iType imm rs1 0b101#3 rd Opc.load
  | .lwu rd rs1 imm => Enc.iType imm rs1 0b110#3 rd Opc.load
  | .sb rs1 rs2 imm => Enc.sType imm rs2 rs1 0b000#3 Opc.store
  | .sh rs1 rs2 imm => Enc.sType imm rs2 rs1 0b001#3 Opc.store
  | .sw rs1 rs2 imm => Enc.sType imm rs2 rs1 0b010#3 Opc.store
  | .sd rs1 rs2 imm => Enc.sType imm rs2 rs1 0b011#3 Opc.store
  | .fence fm pred succ rs1 rd => Enc.iFence fm pred succ rs1 0b000#3 rd Opc.miscMem
  | .fenceI fm pred succ rs1 rd => Enc.iFence fm pred succ rs1 0b001#3 rd Opc.miscMem
  | .csrrw rd csr rs1 => Enc.iCsr csr rs1 0b001#3 rd Opc.system
  | .csrrs rd csr rs1 => Enc.iCsr csr rs1 0b010#3 rd Opc.system
  | .csrrc rd csr rs1 => Enc.iCsr csr rs1 0b011#3 rd Opc.system
  | .csrrwi rd csr zimm => Enc.iCsr csr zimm 0b101#3 rd Opc.system
  | .csrrsi rd csr zimm => Enc.iCsr csr zimm 0b110#3 rd Opc.system
  | .csrrci rd csr zimm => Enc.iCsr csr zimm 0b111#3 rd Opc.system
  | .ecall => Opc.ecallWord
  | .mret => Opc.mretWord
  | .wfi => Opc.wfiWord
  | .amoaddW aq rl rd rs1 rs2 => Enc.aType 0b00000#5 aq rl rs2 rs1 0b010#3 rd Opc.amo
  | .amoxorW aq rl rd rs1 rs2 => Enc.aType 0b00100#5 aq rl rs2 rs1 0b010#3 rd Opc.amo
  | .amoandW aq rl rd rs1 rs2 => Enc.aType 0b01100#5 aq rl rs2 rs1 0b010#3 rd Opc.amo
  | .amoorW aq rl rd rs1 rs2 => Enc.aType 0b01000#5 aq rl rs2 rs1 0b010#3 rd Opc.amo
  | .amominW aq rl rd rs1 rs2 => Enc.aType 0b10000#5 aq rl rs2 rs1 0b010#3 rd Opc.amo
  | .amomaxW aq rl rd rs1 rs2 => Enc.aType 0b10100#5 aq rl rs2 rs1 0b010#3 rd Opc.amo
  | .amominuW aq rl rd rs1 rs2 => Enc.aType 0b11000#5 aq rl rs2 rs1 0b010#3 rd Opc.amo
  | .amomaxuW aq rl rd rs1 rs2 => Enc.aType 0b11100#5 aq rl rs2 rs1 0b010#3 rd Opc.amo
  | .amoaddD aq rl rd rs1 rs2 => Enc.aType 0b00000#5 aq rl rs2 rs1 0b011#3 rd Opc.amo
  | .amoxorD aq rl rd rs1 rs2 => Enc.aType 0b00100#5 aq rl rs2 rs1 0b011#3 rd Opc.amo
  | .amoandD aq rl rd rs1 rs2 => Enc.aType 0b01100#5 aq rl rs2 rs1 0b011#3 rd Opc.amo
  | .amoorD aq rl rd rs1 rs2 => Enc.aType 0b01000#5 aq rl rs2 rs1 0b011#3 rd Opc.amo
  | .amominD aq rl rd rs1 rs2 => Enc.aType 0b10000#5 aq rl rs2 rs1 0b011#3 rd Opc.amo
  | .amomaxD aq rl rd rs1 rs2 => Enc.aType 0b10100#5 aq rl rs2 rs1 0b011#3 rd Opc.amo
  | .amominuD aq rl rd rs1 rs2 => Enc.aType 0b11000#5 aq rl rs2 rs1 0b011#3 rd Opc.amo
  | .amomaxuD aq rl rd rs1 rs2 => Enc.aType 0b11100#5 aq rl rs2 rs1 0b011#3 rd Opc.amo
  | .lrW aq rl rd rs1 rs2 => Enc.aType 0b00010#5 aq rl rs2 rs1 0b010#3 rd Opc.amo
  | .lrD aq rl rd rs1 rs2 => Enc.aType 0b00010#5 aq rl rs2 rs1 0b011#3 rd Opc.amo
  | .scW aq rl rd rs1 rs2 => Enc.aType 0b00011#5 aq rl rs2 rs1 0b010#3 rd Opc.amo
  | .scD aq rl rd rs1 rs2 => Enc.aType 0b00011#5 aq rl rs2 rs1 0b011#3 rd Opc.amo
  | .amoswapW aq rl rd rs1 rs2 => Enc.aType 0b00001#5 aq rl rs2 rs1 0b010#3 rd Opc.amo
  | .amoswapD aq rl rd rs1 rs2 => Enc.aType 0b00001#5 aq rl rs2 rs1 0b011#3 rd Opc.amo
/-! ## The opcode table (30_encoding.md R182) -/

/-- The `match` and `mask` of an instruction's row in spec/opcode_table.json: a word `w` selects the row exactly when
`w & mask = match`. Neither the decoder nor the encoder is computed from these numbers. -/
def Instr.row : Instr → Word32 × Word32
  | .add _ _ _ => (0x00000033#32, 0xFE00707F#32)
  | .sub _ _ _ => (0x40000033#32, 0xFE00707F#32)
  | .sll _ _ _ => (0x00001033#32, 0xFE00707F#32)
  | .slt _ _ _ => (0x00002033#32, 0xFE00707F#32)
  | .sltu _ _ _ => (0x00003033#32, 0xFE00707F#32)
  | .xor _ _ _ => (0x00004033#32, 0xFE00707F#32)
  | .srl _ _ _ => (0x00005033#32, 0xFE00707F#32)
  | .sra _ _ _ => (0x40005033#32, 0xFE00707F#32)
  | .or _ _ _ => (0x00006033#32, 0xFE00707F#32)
  | .and _ _ _ => (0x00007033#32, 0xFE00707F#32)
  | .mul _ _ _ => (0x02000033#32, 0xFE00707F#32)
  | .mulh _ _ _ => (0x02001033#32, 0xFE00707F#32)
  | .mulhsu _ _ _ => (0x02002033#32, 0xFE00707F#32)
  | .mulhu _ _ _ => (0x02003033#32, 0xFE00707F#32)
  | .div _ _ _ => (0x02004033#32, 0xFE00707F#32)
  | .divu _ _ _ => (0x02005033#32, 0xFE00707F#32)
  | .rem _ _ _ => (0x02006033#32, 0xFE00707F#32)
  | .remu _ _ _ => (0x02007033#32, 0xFE00707F#32)
  | .addw _ _ _ => (0x0000003B#32, 0xFE00707F#32)
  | .subw _ _ _ => (0x4000003B#32, 0xFE00707F#32)
  | .sllw _ _ _ => (0x0000103B#32, 0xFE00707F#32)
  | .srlw _ _ _ => (0x0000503B#32, 0xFE00707F#32)
  | .sraw _ _ _ => (0x4000503B#32, 0xFE00707F#32)
  | .mulw _ _ _ => (0x0200003B#32, 0xFE00707F#32)
  | .divw _ _ _ => (0x0200403B#32, 0xFE00707F#32)
  | .divuw _ _ _ => (0x0200503B#32, 0xFE00707F#32)
  | .remw _ _ _ => (0x0200603B#32, 0xFE00707F#32)
  | .remuw _ _ _ => (0x0200703B#32, 0xFE00707F#32)
  | .addi _ _ _ => (0x00000013#32, 0x0000707F#32)
  | .slti _ _ _ => (0x00002013#32, 0x0000707F#32)
  | .sltiu _ _ _ => (0x00003013#32, 0x0000707F#32)
  | .xori _ _ _ => (0x00004013#32, 0x0000707F#32)
  | .ori _ _ _ => (0x00006013#32, 0x0000707F#32)
  | .andi _ _ _ => (0x00007013#32, 0x0000707F#32)
  | .slli _ _ _ => (0x00001013#32, 0xFC00707F#32)
  | .srli _ _ _ => (0x00005013#32, 0xFC00707F#32)
  | .srai _ _ _ => (0x40005013#32, 0xFC00707F#32)
  | .addiw _ _ _ => (0x0000001B#32, 0x0000707F#32)
  | .slliw _ _ _ => (0x0000101B#32, 0xFE00707F#32)
  | .srliw _ _ _ => (0x0000501B#32, 0xFE00707F#32)
  | .sraiw _ _ _ => (0x4000501B#32, 0xFE00707F#32)
  | .lui _ _ => (0x00000037#32, 0x0000007F#32)
  | .auipc _ _ => (0x00000017#32, 0x0000007F#32)
  | .jal _ _ => (0x0000006F#32, 0x0000007F#32)
  | .jalr _ _ _ => (0x00000067#32, 0x0000707F#32)
  | .beq _ _ _ => (0x00000063#32, 0x0000707F#32)
  | .bne _ _ _ => (0x00001063#32, 0x0000707F#32)
  | .blt _ _ _ => (0x00004063#32, 0x0000707F#32)
  | .bge _ _ _ => (0x00005063#32, 0x0000707F#32)
  | .bltu _ _ _ => (0x00006063#32, 0x0000707F#32)
  | .bgeu _ _ _ => (0x00007063#32, 0x0000707F#32)
  | .lb _ _ _ => (0x00000003#32, 0x0000707F#32)
  | .lh _ _ _ => (0x00001003#32, 0x0000707F#32)
  | .lw _ _ _ => (0x00002003#32, 0x0000707F#32)
  | .ld _ _ _ => (0x00003003#32, 0x0000707F#32)
  | .lbu _ _ _ => (0x00004003#32, 0x0000707F#32)
  | .lhu _ _ _ => (0x00005003#32, 0x0000707F#32)
  | .lwu _ _ _ => (0x00006003#32, 0x0000707F#32)
  | .sb _ _ _ => (0x00000023#32, 0x0000707F#32)
  | .sh _ _ _ => (0x00001023#32, 0x0000707F#32)
  | .sw _ _ _ => (0x00002023#32, 0x0000707F#32)
  | .sd _ _ _ => (0x00003023#32, 0x0000707F#32)
  | .fence _ _ _ _ _ => (0x0000000F#32, 0x0000707F#32)
  | .fenceI _ _ _ _ _ => (0x0000100F#32, 0x0000707F#32)
  | .csrrw _ _ _ => (0x00001073#32, 0x0000707F#32)
  | .csrrs _ _ _ => (0x00002073#32, 0x0000707F#32)
  | .csrrc _ _ _ => (0x00003073#32, 0x0000707F#32)
  | .csrrwi _ _ _ => (0x00005073#32, 0x0000707F#32)
  | .csrrsi _ _ _ => (0x00006073#32, 0x0000707F#32)
  | .csrrci _ _ _ => (0x00007073#32, 0x0000707F#32)
  | .ecall => (0x00000073#32, 0xFFFFFFFF#32)
  | .mret => (0x30200073#32, 0xFFFFFFFF#32)
  | .wfi => (0x10500073#32, 0xFFFFFFFF#32)
  | .amoaddW _ _ _ _ _ => (0x0000202F#32, 0xF800707F#32)
  | .amoxorW _ _ _ _ _ => (0x2000202F#32, 0xF800707F#32)
  | .amoandW _ _ _ _ _ => (0x6000202F#32, 0xF800707F#32)
  | .amoorW _ _ _ _ _ => (0x4000202F#32, 0xF800707F#32)
  | .amominW _ _ _ _ _ => (0x8000202F#32, 0xF800707F#32)
  | .amomaxW _ _ _ _ _ => (0xA000202F#32, 0xF800707F#32)
  | .amominuW _ _ _ _ _ => (0xC000202F#32, 0xF800707F#32)
  | .amomaxuW _ _ _ _ _ => (0xE000202F#32, 0xF800707F#32)
  | .amoaddD _ _ _ _ _ => (0x0000302F#32, 0xF800707F#32)
  | .amoxorD _ _ _ _ _ => (0x2000302F#32, 0xF800707F#32)
  | .amoandD _ _ _ _ _ => (0x6000302F#32, 0xF800707F#32)
  | .amoorD _ _ _ _ _ => (0x4000302F#32, 0xF800707F#32)
  | .amominD _ _ _ _ _ => (0x8000302F#32, 0xF800707F#32)
  | .amomaxD _ _ _ _ _ => (0xA000302F#32, 0xF800707F#32)
  | .amominuD _ _ _ _ _ => (0xC000302F#32, 0xF800707F#32)
  | .amomaxuD _ _ _ _ _ => (0xE000302F#32, 0xF800707F#32)
  | .lrW _ _ _ _ _ => (0x1000202F#32, 0xF800707F#32)
  | .lrD _ _ _ _ _ => (0x1000302F#32, 0xF800707F#32)
  | .scW _ _ _ _ _ => (0x1800202F#32, 0xF800707F#32)
  | .scD _ _ _ _ _ => (0x1800302F#32, 0xF800707F#32)
  | .amoswapW _ _ _ _ _ => (0x0800202F#32, 0xF800707F#32)
  | .amoswapD _ _ _ _ _ => (0x0800302F#32, 0xF800707F#32)

end Sys2Proof
end

