-- ==== Sys2Proof/Machine/Fetch.lean ====
section
/-! DEFINITION. Machine/Fetch.lean: the two-read fetch (30_encoding.md R141), the loader's moves (00_scope.md R9,
70_reset_and_hazards.md R476 to R478) and the placing of one instruction word where the next step fetches. -/

namespace Sys2Proof.Machine

/-- `Fetch(pc)` (30_encoding.md R141): the 16-bit read, the length test, the 32-bit read. -/
def fetch (s : State) : Except Exc Word32 :=
  match memRead s s.pc 2 with
  | .error e => .error e
  | .ok h =>
    if isUncompressed (h.setWidth 16) then
      match memRead s s.pc 4 with
      | .error e => .error e
      | .ok w => .ok (w.setWidth 32)
    else .error (.illegalInstruction .compressed)

/-! ## The loader, before the first step only -/

/-- Duty (a): the boot program's bytes into MainMemory from offset 0 (R476, R479). -/
def State.loadRam (s : State) (bytes : List Byte) : State := { s with ram := s.ram.writeBytes 0 bytes }

/-- Duty (b): the blob's bytes into BootRom from offset 0 (R476), directly, not through the dispatcher (R477). -/
def State.loadRom (s : State) (bytes : List Byte) : State := { s with rom := s.rom.writeBytes 0 bytes }

/-- Duty (c): `pc <- DRAM_START` (R476). -/
def State.loadPc (s : State) : State := { s with pc := s.cfg.dramStart }

/-- Construction and loading (R470, R476, R478): no state from an invalid configuration (20_memory.md R96) or from an image
longer than its device (R96 V5, R477). -/
def State.boot (cfg : Config) (dramImage romImage : List Byte) : Option State :=
  if configValid cfg && decide (dramImage.length ≤ cfg.dramSize) && decide (romImage.length ≤ romSize) then
    some (((State.construct cfg).loadRam dramImage).loadRom romImage).loadPc
  else none

/-- A word at `DRAM_START` with `pc` there: the loader's duties (a) and (c) for one instruction. -/
def State.loadWord (s : State) (w : Word32) : State :=
  { s.loadPc with ram := s.ram.writeLE 0 4 w.toNat }

/-- The word stored where the next step fetches: at `pc`, where that is a multiple of 4 in MainMemory or BootRom. Any other `pc`
can fetch no instruction (20_memory.md R110), and the word goes to `DRAM_START` with `pc` there (log entry 9). -/
def State.placeWord (s : State) (w : Word32) : State :=
  if s.pc.toNat % 4 = 0 then
    match regionOf s.cfg s.pc with
    | some ⟨start, _, .mainMemory⟩ => { s with ram := s.ram.writeLE (s.pc.toNat - start.toNat) 4 w.toNat }
    | some ⟨start, _, .bootRom⟩ => { s with rom := s.rom.writeLE (s.pc.toNat - start.toNat) 4 w.toNat }
    | _ => s.loadWord w
  else s.loadWord w

end Sys2Proof.Machine
end

