-- ==== Sys2Proof/Machine/Step.lean ====
section
/-! DEFINITION. Machine/Step.lean: `Step`, the one transition of the hart (00_scope.md R31). -/

namespace Sys2Proof.Machine

/-- `Step` (00_scope.md R31): fetch, decode, execute; whatever raises is delivered as a trap in the same step. A word that
matches no row raises IllegalInstruction (30_encoding.md R175). -/
def step (s : State) : Host.Outcome State Fault Refusal :=
  match fetch s with
  | .error e => raise e s
  | .ok w =>
    match decodeWord w with
    | some i => exec i s
    | none => raiseIllegal .illegalInstruction s

/-- `s` with the instruction of `nbits` bits `w` stored where `step` fetches its next instruction (log entry 9). -/
def State.withFetchWord (s : State) (nbits w : Nat) : State := s.placeWord (tableWord nbits w)

end Sys2Proof.Machine
end

