-- ==== Sys2Proof/Safety.lean ====
section
/-! DEFINITION. Safety.lean: the terms the claims use. A run of this machine is never stopped (00_scope.md R10), so what a claim
says of a step is which kind of next state it answers: retired with these values and nothing else changed, or trapped with this
exception and nothing else changed. -/

namespace Sys2Proof.Machine

/-! ## The invariant -/

/-- A state of a machine that was built: the configuration is valid (20_memory.md R96), and the CSR file, MainMemory and BootRom
are in canonical form within their sizes (10_state.md R49, 20_memory.md R94). -/
def State.Inv (s : State) : Prop :=
  configValid s.cfg = true ∧ CsrFile.wf s.csrs = true ∧ Memory.wf s.cfg.dramSize s.ram = true ∧
    Memory.wf romSize s.rom = true

/-- `k` steps lead from `s` to `t`. -/
def Reaches (k : Nat) (s t : State) : Prop := Host.Core.run Sys2Proof.core k s = .next t

/-! ## Numbers (00_scope.md R18, R19) -/

/-- The 64-bit value of an integer, modulo 2^64 (R18). -/
def wordOf (v : Int) : Word := BitVec.ofInt 64 v

/-- `unsigned_N(v)` (R18). -/
def unsignedN (n : Nat) (v : Word) : Nat := v.toNat % 2 ^ n

/-- The two's-complement reading of an integer's low N bits. -/
def wrapN (n : Nat) (v : Int) : Int := if v % 2 ^ n < 2 ^ (n - 1) then v % 2 ^ n else v % 2 ^ n - 2 ^ n

/-- `signed_N(v)` (R18). -/
def signedN (n : Nat) (v : Word) : Int := wrapN n v.toNat

/-- `sext_N` of an integer's low N bits (R19). -/
def sextN (n : Nat) (v : Int) : Word := wordOf (wrapN n v)

/-- The 64-bit value 1 or 0 of a comparison (R20). -/
def bit (p : Prop) [Decidable p] : Word := if p then 1#64 else 0#64

/-! ## What stays the same -/

/-- The general registers as before, but for `x[rd] = v`; `x0` reads 0 (10_state.md R41). -/
def RegsWith (s t : State) (rd : RegIdx) (v : Word) : Prop :=
  t.readX 0#5 = 0#64 ∧ ∀ q, q ≠ 0#5 → t.readX q = if q = rd then v else s.readX q

/-- Every general register as before. -/
def SameRegs (s t : State) : Prop := ∀ q, t.readX q = s.readX q

/-- Every CSR as before. -/
def SameCsrs (s t : State) : Prop := ∀ c, t.readCsr c = s.readCsr c

/-- Every byte a read can see as before. -/
def SameMemory (s t : State) : Prop := ∀ a, t.byteAt a = s.byteAt a

/-- The configuration, the mode and BootRom as before. -/
def SameRest (s t : State) : Prop := t.cfg = s.cfg ∧ t.mode = s.mode ∧ t.rom = s.rom

/-! ## The kinds of next state -/

/-- The answer is a next state in which the instruction retired: `x[rd]` is `v` (discarded for `x0`), `pc` is `target`, and
nothing else changed. -/
def RetiresWith (r : Result) (s : State) (rd : RegIdx) (v target : Word) : Prop :=
  ∃ t, r = .next t ∧ RegsWith s t rd v ∧ t.pc = target ∧ SameCsrs s t ∧ SameMemory s t ∧ SameRest s t ∧
    t.console = s.console ∧ t.report = some .retired

/-- The answer is a next state in which the instruction retired and the bytes `a` to `a + n - 1` hold the low `n` bytes of `w`,
the least significant first (20_memory.md R99); `x[rd]` is `v`, `pc` is `pc + 4`, and nothing else changed. -/
def StoresWith (r : Result) (s : State) (rd : RegIdx) (v a : Word) (n w : Nat) : Prop :=
  ∃ t, r = .next t ∧ RegsWith s t rd v ∧ t.pc = s.pc + 4#64 ∧ SameCsrs s t ∧
    (∀ b : Word, t.byteAt b =
      if a.toNat ≤ b.toNat ∧ b.toNat < a.toNat + n then some (BitVec.ofNat 8 (w / 256 ^ (b.toNat - a.toNat)))
      else s.byteAt b) ∧
    SameRest s t ∧ t.console = s.console ∧ t.report = some .retired

/-- The answer is a next state in which the instruction retired and the console has emitted one byte (20_memory.md R104); `x[rd]`
is `v`, `pc` is `pc + 4`, and nothing else changed. -/
def EmitsWith (r : Result) (s : State) (rd : RegIdx) (v : Word) (b : Byte) : Prop :=
  ∃ t, r = .next t ∧ RegsWith s t rd v ∧ t.pc = s.pc + 4#64 ∧ SameCsrs s t ∧ SameMemory s t ∧ SameRest s t ∧
    t.console = s.console ++ [b] ∧ t.report = some .retired

/-- The answer is a next state in which a CSR instruction retired (47_system.md R350): `x[rd]` has the old value of the CSR, the
CSR has `new`, `pc` is `pc + 4`, and nothing else changed. -/
def UpdatesCsr (r : Result) (s : State) (rd : RegIdx) (csr : CsrIdx) (new : Word) : Prop :=
  ∃ t, r = .next t ∧ RegsWith s t rd (s.readCsr csr) ∧ t.pc = s.pc + 4#64 ∧
    (∀ c, t.readCsr c = if c = csr then new else s.readCsr c) ∧ SameMemory s t ∧ SameRest s t ∧
    t.console = s.console ∧ t.report = some .retired

/-- The answer is a next state in which `e` was taken (60_exceptions.md R430, R431): `mcause` has the code of `e`, `mtval` is 0,
`mepc` is the `pc` of the instruction, `pc` is `mtvec`, and nothing else changed. -/
def Traps (r : Result) (s : State) (e : Exc) : Prop :=
  ∃ t, r = .next t ∧ t.pc = s.readCsr Csr.mtvec ∧
    (∀ c, t.readCsr c = if c = Csr.mcause then e.code else if c = Csr.mtval then 0#64 else if c = Csr.mepc then s.pc
      else s.readCsr c) ∧
    SameRegs s t ∧ SameMemory s t ∧ SameRest s t ∧ t.console = s.console ∧ t.report = some (.trapped e)

/-! ## Addresses and the bytes there -/

/-- The address is in some region (20_memory.md R92). -/
def Mapped (cfg : Config) (a : Word) : Prop := ∃ r ∈ regionTable cfg, regionHas r a = true

/-- The address is in MainMemory. -/
def InRam (cfg : Config) (a : Word) : Prop := regionHas (dramRegion cfg) a = true
/-- The address is in BootRom. -/
def InRom (cfg : Config) (a : Word) : Prop := regionHas (romRegion cfg) a = true
/-- The address is in the console's region. -/
def InConsole (cfg : Config) (a : Word) : Prop := regionHas (uartRegion cfg) a = true
/-- The address is in the timer's region. -/
def InTimer (cfg : Config) (a : Word) : Prop := regionHas (clintRegion cfg) a = true

/-- The `n` bytes from `a` on as one number, the byte at the lowest address least significant (20_memory.md R99). -/
def State.leAt (s : State) (a : Word) : Nat → Nat
  | 0 => 0
  | n + 1 => ((s.byteAt a).getD 0#8).toNat + 256 * State.leAt s (a + 1#64) n

/-! ## What an instruction does, by shape: the words that select its row, and its effect at every state -/

/-- `w & mask = match` selects the row. -/
def Selects (mk : Word32 → Instr) (mtch mask : Word32) : Prop := ∀ w, w &&& mask = mtch → decodeWord w = some (mk w)

/-- `w` matches no row, and a step that fetches it takes IllegalInstruction (30_encoding.md R175). -/
def MatchesNoRow (w : Word32) : Prop :=
  decodeWord w = none ∧ ∀ s : State, fetch s = .ok w → Traps (step s) s (.illegalInstruction .illegalInstruction)

/-- An R-type instruction whose effect is `x[rd] <- f x[rs1] x[rs2]`. -/
def ComputesR (mk : RegIdx → RegIdx → RegIdx → Instr) (mtch mask : Word32) (f : Word → Word → Word) : Prop :=
  Selects (fun w => mk (Enc.rd w) (Enc.rs1 w) (Enc.rs2 w)) mtch mask ∧
  ∀ s rd rs1 rs2, RetiresWith (exec (mk rd rs1 rs2) s) s rd (f (s.readX rs1) (s.readX rs2)) (s.pc + 4#64)

/-- An I-type instruction whose effect is `x[rd] <- f x[rs1] (signed imm)`. -/
def ComputesI (mk : RegIdx → RegIdx → BitVec 12 → Instr) (mtch mask : Word32) (f : Word → Int → Word) : Prop :=
  Selects (fun w => mk (Enc.rd w) (Enc.rs1 w) (Enc.immI w)) mtch mask ∧
  ∀ s rd rs1 imm, RetiresWith (exec (mk rd rs1 imm) s) s rd (f (s.readX rs1) imm.toInt) (s.pc + 4#64)

/-- A shift by a constant whose effect is `x[rd] <- f x[rs1] shamt`, the amount being `k` bits of the word from bit 20 on. -/
def ComputesShift {k : Nat} (mk : RegIdx → RegIdx → BitVec k → Instr) (mtch mask : Word32) (f : Word → Nat → Word) : Prop :=
  Selects (fun w => mk (Enc.rd w) (Enc.rs1 w) (w.extractLsb' 20 k)) mtch mask ∧
  ∀ s rd rs1 shamt, RetiresWith (exec (mk rd rs1 shamt) s) s rd (f (s.readX rs1) shamt.toNat) (s.pc + 4#64)

/-- A conditional branch on `cond x[rs1] x[rs2]` (45_jump_branch.md R304): no register is written. -/
def BranchesOn (mk : RegIdx → RegIdx → BitVec 13 → Instr) (mtch mask : Word32) (cond : Word → Word → Prop) : Prop :=
  Selects (fun w => mk (Enc.rs1 w) (Enc.rs2 w) (Enc.immB w)) mtch mask ∧
  ∀ s rs1 rs2 offset,
    (cond (s.readX rs1) (s.readX rs2) →
      RetiresWith (exec (mk rs1 rs2 offset) s) s 0#5 0#64 (wordOf (s.pc.toNat + offset.toInt))) ∧
    (¬cond (s.readX rs1) (s.readX rs2) → RetiresWith (exec (mk rs1 rs2 offset) s) s 0#5 0#64 (s.pc + 4#64))

/-- A load of `n` bytes whose value is `ext` of their number (46_load_store_fence.md R321). -/
def LoadsAs (mk : RegIdx → RegIdx → BitVec 12 → Instr) (mtch mask : Word32) (n : Nat) (ext : Nat → Word) : Prop :=
  Selects (fun w => mk (Enc.rd w) (Enc.rs1 w) (Enc.immI w)) mtch mask ∧
  ∀ s rd rs1 imm, configValid s.cfg = true →
    ((effectiveAddr s rs1 imm).toNat % n ≠ 0 → Traps (exec (mk rd rs1 imm) s) s .loadAddressMisaligned) ∧
    ((effectiveAddr s rs1 imm).toNat % n = 0 → ¬Mapped s.cfg (effectiveAddr s rs1 imm) →
      Traps (exec (mk rd rs1 imm) s) s .loadAccessFault) ∧
    ((effectiveAddr s rs1 imm).toNat % n = 0 → Mapped s.cfg (effectiveAddr s rs1 imm) →
      RetiresWith (exec (mk rd rs1 imm) s) s rd (ext (s.leAt (effectiveAddr s rs1 imm) n)) (s.pc + 4#64))

/-- A store of the low `n` bytes of `x[rs2]` (46_load_store_fence.md R329). -/
def StoresAs (mk : RegIdx → RegIdx → BitVec 12 → Instr) (mtch mask : Word32) (n : Nat) : Prop :=
  Selects (fun w => mk (Enc.rs1 w) (Enc.rs2 w) (Enc.immS w)) mtch mask ∧
  ∀ s rs1 rs2 imm, configValid s.cfg = true →
    ((effectiveAddr s rs1 imm).toNat % n ≠ 0 → Traps (exec (mk rs1 rs2 imm) s) s .storeAddressMisaligned) ∧
    ((effectiveAddr s rs1 imm).toNat % n = 0 → ¬Mapped s.cfg (effectiveAddr s rs1 imm) →
      Traps (exec (mk rs1 rs2 imm) s) s .storeAccessFault) ∧
    ((effectiveAddr s rs1 imm).toNat % n = 0 → InRam s.cfg (effectiveAddr s rs1 imm) →
      StoresWith (exec (mk rs1 rs2 imm) s) s 0#5 0#64 (effectiveAddr s rs1 imm) n (s.readX rs2).toNat)

/-- What a store of any width does outside MainMemory (20_memory.md R102, R104, R105). -/
def StoresToDevices (mk : RegIdx → RegIdx → BitVec 12 → Instr) (n : Nat) : Prop :=
  ∀ s rs1 rs2 imm, configValid s.cfg = true → (effectiveAddr s rs1 imm).toNat % n = 0 →
    (InRom s.cfg (effectiveAddr s rs1 imm) → Traps (exec (mk rs1 rs2 imm) s) s .storeAccessFault) ∧
    (InTimer s.cfg (effectiveAddr s rs1 imm) → RetiresWith (exec (mk rs1 rs2 imm) s) s 0#5 0#64 (s.pc + 4#64)) ∧
    (effectiveAddr s rs1 imm = s.cfg.uartStart →
      EmitsWith (exec (mk rs1 rs2 imm) s) s 0#5 0#64 ((s.readX rs2).setWidth 8)) ∧
    (InConsole s.cfg (effectiveAddr s rs1 imm) → effectiveAddr s rs1 imm ≠ s.cfg.uartStart →
      RetiresWith (exec (mk rs1 rs2 imm) s) s 0#5 0#64 (s.pc + 4#64))

/-- The constructor of an AMO. -/
abbrev AmoCtor := Bool → Bool → RegIdx → RegIdx → RegIdx → Instr

/-- The rows of the AMO opcode (30_encoding.md R170). -/
def amoCtors : List AmoCtor :=
  [.amoaddW, .amoxorW, .amoandW, .amoorW, .amominW, .amomaxW, .amominuW, .amomaxuW, .amoaddD, .amoxorD, .amoandD, .amoorD,
    .amominD, .amomaxD, .amominuD, .amomaxuD, .lrW, .lrD, .scW, .scD, .amoswapW, .amoswapD]

/-- An AMO of `n` bytes at `x[rs1]` (48_amo.md R380, R383): in MainMemory the bytes become `f old x[rs2]`, `old` being their
number, and `x[rd]` becomes `ext old`; elsewhere as the devices and the two accesses have it. -/
def AmoAs (mk : AmoCtor) (mtch mask : Word32) (n : Nat) (f : Nat → Word → Nat) (ext : Nat → Word) : Prop :=
  Selects (fun w => mk (Enc.aq w) (Enc.rl w) (Enc.rd w) (Enc.rs1 w) (Enc.rs2 w)) mtch mask ∧
  ∀ s aq rl rd rs1 rs2, configValid s.cfg = true →
    ((s.readX rs1).toNat % n ≠ 0 → Traps (exec (mk aq rl rd rs1 rs2) s) s .loadAddressMisaligned) ∧
    ((s.readX rs1).toNat % n = 0 → ¬Mapped s.cfg (s.readX rs1) →
      Traps (exec (mk aq rl rd rs1 rs2) s) s .loadAccessFault) ∧
    ((s.readX rs1).toNat % n = 0 → InRom s.cfg (s.readX rs1) →
      Traps (exec (mk aq rl rd rs1 rs2) s) s .storeAccessFault) ∧
    ((s.readX rs1).toNat % n = 0 → InRam s.cfg (s.readX rs1) →
      StoresWith (exec (mk aq rl rd rs1 rs2) s) s rd (ext (s.leAt (s.readX rs1) n)) (s.readX rs1) n
        (f (s.leAt (s.readX rs1) n) (s.readX rs2))) ∧
    ((s.readX rs1).toNat % n = 0 → InTimer s.cfg (s.readX rs1) →
      RetiresWith (exec (mk aq rl rd rs1 rs2) s) s rd 0#64 (s.pc + 4#64)) ∧
    (s.readX rs1 = s.cfg.uartStart →
      EmitsWith (exec (mk aq rl rd rs1 rs2) s) s rd 0#64 (BitVec.ofNat 8 (f 0 (s.readX rs2)))) ∧
    ((s.readX rs1).toNat % n = 0 → InConsole s.cfg (s.readX rs1) → s.readX rs1 ≠ s.cfg.uartStart →
      RetiresWith (exec (mk aq rl rd rs1 rs2) s) s rd 0#64 (s.pc + 4#64))

/-- A CSR instruction with a register operand whose new value is `f old x[rs1]`. -/
def UpdatesCsrR (mk : RegIdx → CsrIdx → RegIdx → Instr) (mtch mask : Word32) (f : Word → Word → Word) : Prop :=
  Selects (fun w => mk (Enc.rd w) (Enc.csr w) (Enc.rs1 w)) mtch mask ∧
  ∀ s rd csr rs1, UpdatesCsr (exec (mk rd csr rs1) s) s rd csr (f (s.readCsr csr) (s.readX rs1))

/-- A CSR instruction with an immediate operand whose new value is `f old zimm`. -/
def UpdatesCsrI (mk : RegIdx → CsrIdx → BitVec 5 → Instr) (mtch mask : Word32) (f : Word → Word → Word) : Prop :=
  Selects (fun w => mk (Enc.rd w) (Enc.csr w) (Enc.rs1 w)) mtch mask ∧
  ∀ s rd csr zimm, UpdatesCsr (exec (mk rd csr zimm) s) s rd csr (f (s.readCsr csr) (wordOf zimm.toNat))

end Sys2Proof.Machine
end

