-- ==== Sys2Proof/Certificates/Slice0/Obligations.lean ====
section
/-! DEFINITION. Certificates/Slice0/Obligations.lean: the statements for the provers. The terms are Safety.lean's: `RetiresWith`,
`StoresWith`, `EmitsWith`, `UpdatesCsr` and `Traps` each say that the answer IS a next state, what it holds, and that nothing else
changed; `ComputesR` and its like say it for every word of the row, every state and every operand. The numbers of the encodings in
the rows are the spec's decision D4 (log entry 5) wherever they stand. -/

section

open Sys2Proof Sys2Proof.Machine

/-! ## Encoding -/

/-- Decoding the word of a well-formed instruction gives the instruction back, with every operand, whatever bytes follow.
The numbers of the encoding are general knowledge (log entry 5). -/
def Obligations.DecodeOfEncode : Prop :=
  ∀ i : Instr, i.wf = true →
    decodeWord (encode i) = some i ∧ ∀ rest, decode (bytesOfWord (encode i) ++ rest) = .ok (i, rest)

/-- Each word that decodes is the one word of its instruction, which is well-formed: no bit of a word is dropped. For the ignored
fields of FENCE, FENCE.I, LR and the AMOs that is the model's choice to keep them as operands (log entry 19). -/
def Obligations.EncodeOfDecode : Prop :=
  ∀ (w : Word32) (i : Instr), decodeWord w = some i → encode i = w ∧ i.wf = true

/-- A word decodes to an instruction of a row exactly when it has the fixed bits of that row in spec/opcode_table.json; a word
that selects no row decodes to nothing. -/
def Obligations.RowsSelectExactly : Prop :=
  ∀ w : Word32,
    (∀ i, decodeWord w = some i → w &&& i.row.2 = i.row.1) ∧
    (∀ i : Instr, w &&& i.row.2 = i.row.1 → ∃ j, decodeWord w = some j ∧ j.row = i.row)

/-- The opcodes, functs and full words that the encoding tables leave out match no row, and a step that fetches one takes
IllegalInstruction. That unlisted words raise is the spec's decision D5, for MISC-MEM D20, for the LOAD and STORE functs D28 and for
the shift-immediates D29 (log entry 12). -/
def Obligations.UnlistedWordsMatchNoRow : Prop :=
  ∀ w : Word32,
    (Enc.opcode w ∉ [0b0000011#7, 0b0001111#7, 0b0010011#7, 0b0010111#7, 0b0011011#7, 0b0100011#7, 0b0101111#7, 0b0110011#7,
      0b0110111#7, 0b0111011#7, 0b1100011#7, 0b1100111#7, 0b1101111#7, 0b1110011#7] → MatchesNoRow w) ∧
    (Enc.opcode w = 0b1100111#7 → Enc.funct3 w ≠ 0#3 → MatchesNoRow w) ∧
    (Enc.opcode w = 0b0000011#7 → Enc.funct3 w = 7#3 → MatchesNoRow w) ∧
    (Enc.opcode w = 0b0100011#7 → 4 ≤ (Enc.funct3 w).toNat → MatchesNoRow w) ∧
    (Enc.opcode w = 0b1100011#7 → Enc.funct3 w = 2#3 ∨ Enc.funct3 w = 3#3 → MatchesNoRow w) ∧
    (Enc.opcode w = 0b0001111#7 → 2 ≤ (Enc.funct3 w).toNat → MatchesNoRow w) ∧
    (Enc.opcode w = 0b1110011#7 → Enc.funct3 w = 4#3 → MatchesNoRow w) ∧
    (Enc.opcode w = 0b1110011#7 → Enc.funct3 w = 0#3 → w ∉ [0x00000073#32, 0x30200073#32, 0x10500073#32] →
      MatchesNoRow w) ∧
    (Enc.opcode w = 0b0101111#7 → Enc.funct3 w ∉ [2#3, 3#3] → MatchesNoRow w) ∧
    (Enc.opcode w = 0b0010011#7 → Enc.funct3 w = 1#3 → Enc.funct6 w ≠ 0#6 → MatchesNoRow w) ∧
    (Enc.opcode w = 0b0010011#7 → Enc.funct3 w = 5#3 → Enc.funct6 w ∉ [0#6, 16#6] → MatchesNoRow w) ∧
    (Enc.opcode w = 0b0011011#7 → Enc.funct3 w ∉ [0#3, 1#3, 5#3] → MatchesNoRow w) ∧
    (Enc.opcode w = 0b0011011#7 → Enc.funct3 w ≠ 0#3 → w.getLsbD 25 = true → MatchesNoRow w) ∧
    (Enc.opcode w = 0b0011011#7 → Enc.funct3 w = 1#3 → Enc.funct7 w ≠ 0#7 → MatchesNoRow w) ∧
    (Enc.opcode w = 0b0011011#7 → Enc.funct3 w = 5#3 → Enc.funct7 w ∉ [0#7, 32#7] → MatchesNoRow w) ∧
    (Enc.opcode w = 0b0101111#7 → Enc.funct5 w ∉ [0#5, 1#5, 2#5, 3#5, 4#5, 8#5, 12#5, 16#5, 20#5, 24#5, 28#5] →
      MatchesNoRow w) ∧
    (Enc.opcode w = 0b0110011#7 → Enc.funct7 w ∉ [0#7, 1#7, 32#7] → MatchesNoRow w) ∧
    (Enc.opcode w = 0b0110011#7 → Enc.funct7 w = 32#7 → Enc.funct3 w ∉ [0#3, 5#3] → MatchesNoRow w) ∧
    (Enc.opcode w = 0b0111011#7 → Enc.funct7 w ∉ [0#7, 1#7, 32#7] → MatchesNoRow w) ∧
    (Enc.opcode w = 0b0111011#7 → Enc.funct7 w = 0#7 → Enc.funct3 w ∉ [0#3, 1#3, 5#3] → MatchesNoRow w) ∧
    (Enc.opcode w = 0b0111011#7 → Enc.funct7 w = 32#7 → Enc.funct3 w ∉ [0#3, 5#3] → MatchesNoRow w) ∧
    (Enc.opcode w = 0b0111011#7 → Enc.funct7 w = 1#7 → Enc.funct3 w ∉ [0#3, 4#3, 5#3, 6#3, 7#3] → MatchesNoRow w)

/-- Words the spec writes out decode to the instructions they stand for, one for each family. -/
def Obligations.SampleWordsDecode : Prop :=
  decodeWord 0x40C58533#32 = some (.sub 10#5 11#5 12#5) ∧ decodeWord 0x02C5C533#32 = some (.div 10#5 11#5 12#5) ∧
  decodeWord 0x00C5953B#32 = some (.sllw 10#5 11#5 12#5) ∧ decodeWord 0xFFF58513#32 = some (.addi 10#5 11#5 0xFFF#12) ∧
  decodeWord 0x43F5D513#32 = some (.srai 10#5 11#5 63#6) ∧ decodeWord 0x80000537#32 = some (.lui 10#5 0x80000#20) ∧
  decodeWord 0xFFDFF0EF#32 = some (.jal 1#5 0x1FFFFC#21) ∧ decodeWord 0xFEC59CE3#32 = some (.bne 11#5 12#5 0x1FF8#13) ∧
  decodeWord 0x0005A503#32 = some (.lw 10#5 11#5 0#12) ∧ decodeWord 0xFEC5BC23#32 = some (.sd 11#5 12#5 0xFF8#12) ∧
  decodeWord 0x0FF0000F#32 = some (.fence 0#4 15#4 15#4 0#5 0#5) ∧
  decodeWord 0x34059573#32 = some (.csrrw 10#5 0x340#12 11#5) ∧ decodeWord 0x30200073#32 = some .mret ∧
  decodeWord 0x00C5A52F#32 = some (.amoaddW false false 10#5 11#5 12#5)

/-! ## Register results -/

/-- ADD, SUB and the three shifts at 64 bits: the row, the value in `x[rd]`, `pc + 4`, nothing else. -/
def Obligations.AddSubShiftResults : Prop :=
  ComputesR .add 0x00000033#32 0xFE00707F#32 (fun a b => wordOf (a.toNat + b.toNat)) ∧
  ComputesR .sub 0x40000033#32 0xFE00707F#32 (fun a b => wordOf ((a.toNat : Int) - b.toNat)) ∧
  ComputesR .sll 0x00001033#32 0xFE00707F#32 (fun a b => wordOf (a.toNat * 2 ^ (b.toNat % 64) : Nat)) ∧
  ComputesR .srl 0x00005033#32 0xFE00707F#32 (fun a b => wordOf (a.toNat / 2 ^ (b.toNat % 64) : Nat)) ∧
  ComputesR .sra 0x40005033#32 0xFE00707F#32 (fun a b => wordOf (signedN 64 a / 2 ^ (b.toNat % 64)))

/-- SLT, SLTU and the bitwise operations at 64 bits. -/
def Obligations.CompareAndLogicResults : Prop :=
  ComputesR .slt 0x00002033#32 0xFE00707F#32 (fun a b => bit (signedN 64 a < signedN 64 b)) ∧
  ComputesR .sltu 0x00003033#32 0xFE00707F#32 (fun a b => bit (a.toNat < b.toNat)) ∧
  ComputesR .xor 0x00004033#32 0xFE00707F#32 (fun a b => a ^^^ b) ∧
  ComputesR .or 0x00006033#32 0xFE00707F#32 (fun a b => a ||| b) ∧
  ComputesR .and 0x00007033#32 0xFE00707F#32 (fun a b => a &&& b)

/-- MUL, MULH and MULHU: the low half, and the high halves of the exact signed and unsigned products. -/
def Obligations.MultiplyResults : Prop :=
  ComputesR .mul 0x02000033#32 0xFE00707F#32 (fun a b => wordOf (a.toNat * b.toNat : Nat)) ∧
  ComputesR .mulh 0x02001033#32 0xFE00707F#32 (fun a b => wordOf (signedN 64 a * signedN 64 b / 2 ^ 64)) ∧
  ComputesR .mulhu 0x02003033#32 0xFE00707F#32 (fun a b => wordOf (a.toNat * b.toNat / 2 ^ 64 : Nat))

/-- DIV, DIVU, REM and REMU with their corner cases; the corner values are the spec's decision D17 (41_op_muldiv.md R220). -/
def Obligations.DivideResults : Prop :=
  ComputesR .div 0x02004033#32 0xFE00707F#32 (fun a b =>
    if signedN 64 b = 0 then wordOf (-1)
    else if signedN 64 a = -2 ^ 63 ∧ signedN 64 b = -1 then wordOf (-2 ^ 63)
    else wordOf ((signedN 64 a).tdiv (signedN 64 b))) ∧
  ComputesR .divu 0x02005033#32 0xFE00707F#32 (fun a b =>
    if b.toNat = 0 then wordOf (-1) else wordOf (a.toNat / b.toNat : Nat)) ∧
  ComputesR .rem 0x02006033#32 0xFE00707F#32 (fun a b =>
    if signedN 64 b = 0 then a
    else if signedN 64 a = -2 ^ 63 ∧ signedN 64 b = -1 then 0#64
    else wordOf (signedN 64 a - signedN 64 b * (signedN 64 a).tdiv (signedN 64 b))) ∧
  ComputesR .remu 0x02007033#32 0xFE00707F#32 (fun a b =>
    if b.toNat = 0 then a else wordOf (a.toNat % b.toNat : Nat))

/-- Quotient and remainder belong together: `divisor * quotient + remainder = dividend` modulo 2^64 for every pair of operands,
the corner cases of decision D17 included, and for a divisor other than 0 the remainder is smaller than the divisor. -/
def Obligations.QuotientAndRemainderAgree : Prop :=
  ∀ (s : State) (rd rs1 rs2 : RegIdx), rd ≠ 0#5 →
    (∃ t u, exec (.div rd rs1 rs2) s = .next t ∧ exec (.rem rd rs1 rs2) s = .next u ∧
      s.readX rs2 * t.readX rd + u.readX rd = s.readX rs1 ∧
      (s.readX rs2 ≠ 0#64 → (u.readX rd).toInt.natAbs < (s.readX rs2).toInt.natAbs)) ∧
    (∃ t u, exec (.divu rd rs1 rs2) s = .next t ∧ exec (.remu rd rs1 rs2) s = .next u ∧
      s.readX rs2 * t.readX rd + u.readX rd = s.readX rs1 ∧
      (s.readX rs2 ≠ 0#64 → (u.readX rd).toNat < (s.readX rs2).toNat))

/-- ADDW, SUBW, the W shifts and MULW: the low 32 bits of the operands, the 32-bit result sign-extended. -/
def Obligations.WordArithmeticResults : Prop :=
  ComputesR .addw 0x0000003B#32 0xFE00707F#32 (fun a b => sextN 32 (unsignedN 32 a + unsignedN 32 b)) ∧
  ComputesR .subw 0x4000003B#32 0xFE00707F#32 (fun a b => sextN 32 ((unsignedN 32 a : Int) - unsignedN 32 b)) ∧
  ComputesR .sllw 0x0000103B#32 0xFE00707F#32 (fun a b => sextN 32 (unsignedN 32 a * 2 ^ (b.toNat % 32) : Nat)) ∧
  ComputesR .srlw 0x0000503B#32 0xFE00707F#32 (fun a b => sextN 32 (unsignedN 32 a / 2 ^ (b.toNat % 32) : Nat)) ∧
  ComputesR .sraw 0x4000503B#32 0xFE00707F#32 (fun a b => sextN 32 (signedN 32 a / 2 ^ (b.toNat % 32))) ∧
  ComputesR .mulw 0x0200003B#32 0xFE00707F#32 (fun a b => sextN 32 (unsignedN 32 a * unsignedN 32 b : Nat))

/-- DIVW, DIVUW, REMW and REMUW; the corner values are the spec's decision D17 at 32 bits (41_op_muldiv.md R220). -/
def Obligations.WordDivideResults : Prop :=
  ComputesR .divw 0x0200403B#32 0xFE00707F#32 (fun a b =>
    if signedN 32 b = 0 then sextN 32 (-1)
    else if signedN 32 a = -2 ^ 31 ∧ signedN 32 b = -1 then sextN 32 (-2 ^ 31)
    else sextN 32 ((signedN 32 a).tdiv (signedN 32 b))) ∧
  ComputesR .divuw 0x0200503B#32 0xFE00707F#32 (fun a b =>
    if unsignedN 32 b = 0 then sextN 32 (-1) else sextN 32 (unsignedN 32 a / unsignedN 32 b : Nat)) ∧
  ComputesR .remw 0x0200603B#32 0xFE00707F#32 (fun a b =>
    if signedN 32 b = 0 then sextN 32 (unsignedN 32 a)
    else if signedN 32 a = -2 ^ 31 ∧ signedN 32 b = -1 then 0#64
    else sextN 32 (signedN 32 a - signedN 32 b * (signedN 32 a).tdiv (signedN 32 b))) ∧
  ComputesR .remuw 0x0200703B#32 0xFE00707F#32 (fun a b =>
    if unsignedN 32 b = 0 then sextN 32 (unsignedN 32 a) else sextN 32 (unsignedN 32 a % unsignedN 32 b : Nat))

/-- The W instructions do not see bits 63:32 of their operands, and bits 63:32 of what they write copy bit 31. -/
def Obligations.WordOpsIgnoreUpperHalves : Prop :=
  ∀ mk ∈ [Instr.addw, .subw, .sllw, .srlw, .sraw, .mulw, .divw, .divuw, .remw, .remuw],
    ∀ (s s' : State) (rd rs1 rs2 : RegIdx), rd ≠ 0#5 →
      unsignedN 32 (s.readX rs1) = unsignedN 32 (s'.readX rs1) →
      unsignedN 32 (s.readX rs2) = unsignedN 32 (s'.readX rs2) →
      ∃ t t', exec (mk rd rs1 rs2) s = .next t ∧ exec (mk rd rs1 rs2) s' = .next t' ∧ t.readX rd = t'.readX rd ∧
        t.readX rd = sextN 32 (unsignedN 32 (t.readX rd))

/-- The immediate instructions at 64 bits: the 12-bit immediate is signed for all of them, the shift amount is unsigned, and a shift
word with other bits 31:26 matches no row (decision D29). -/
def Obligations.ImmediateResults : Prop :=
  ComputesI .addi 0x00000013#32 0x0000707F#32 (fun a k => wordOf (a.toNat + k)) ∧
  ComputesI .slti 0x00002013#32 0x0000707F#32 (fun a k => bit (signedN 64 a < k)) ∧
  ComputesI .sltiu 0x00003013#32 0x0000707F#32 (fun a k => bit (a.toNat < (wordOf k).toNat)) ∧
  ComputesI .xori 0x00004013#32 0x0000707F#32 (fun a k => a ^^^ wordOf k) ∧
  ComputesI .ori 0x00006013#32 0x0000707F#32 (fun a k => a ||| wordOf k) ∧
  ComputesI .andi 0x00007013#32 0x0000707F#32 (fun a k => a &&& wordOf k) ∧
  ComputesShift .slli 0x00001013#32 0xFC00707F#32 (fun a n => wordOf (a.toNat * 2 ^ n : Nat)) ∧
  ComputesShift .srli 0x00005013#32 0xFC00707F#32 (fun a n => wordOf (a.toNat / 2 ^ n : Nat)) ∧
  ComputesShift .srai 0x40005013#32 0xFC00707F#32 (fun a n => wordOf (signedN 64 a / 2 ^ n)) ∧
  ∀ w : Word32, Enc.opcode w = 0b0010011#7 →
    (Enc.funct3 w = 1#3 → Enc.funct6 w ≠ 0#6 → MatchesNoRow w) ∧
    (Enc.funct3 w = 5#3 → Enc.funct6 w ≠ 0#6 → Enc.funct6 w ≠ 16#6 → MatchesNoRow w)

/-- The immediate instructions on 32 bits; SLLIW with bit 25 set matches no row (decision D29). -/
def Obligations.WordImmediateResults : Prop :=
  ComputesI .addiw 0x0000001B#32 0x0000707F#32 (fun a k => sextN 32 (unsignedN 32 a + k)) ∧
  ComputesShift .slliw 0x0000101B#32 0xFE00707F#32 (fun a n => sextN 32 (unsignedN 32 a * 2 ^ n : Nat)) ∧
  ComputesShift .srliw 0x0000501B#32 0xFE00707F#32 (fun a n => sextN 32 (unsignedN 32 a / 2 ^ n : Nat)) ∧
  ComputesShift .sraiw 0x4000501B#32 0xFE00707F#32 (fun a n => sextN 32 (signedN 32 a / 2 ^ n)) ∧
  ∀ w : Word32, Enc.opcode w = 0b0011011#7 → Enc.funct3 w = 1#3 → w.getLsbD 25 = true → MatchesNoRow w

/-- LUI: the row, and the field over twelve zero bits, sign-extended from bit 31. -/
def Obligations.LuiResult : Prop :=
  Selects (fun w => .lui (Enc.rd w) (Enc.imm20 w)) 0x00000037#32 0x0000007F#32 ∧
  ∀ (s : State) (rd : RegIdx) (imm20 : BitVec 20),
    RetiresWith (exec (.lui rd imm20) s) s rd (sextN 32 (imm20.toNat * 4096)) (s.pc + 4#64)

/-! ## Jumps and branches -/

/-- AUIPC and JAL work from the address of the instruction itself, modulo 2^64 (decision D30). -/
def Obligations.AuipcAndJalResults : Prop :=
  Selects (fun w => .auipc (Enc.rd w) (Enc.imm20 w)) 0x00000017#32 0x0000007F#32 ∧
  Selects (fun w => .jal (Enc.rd w) (Enc.immJ w)) 0x0000006F#32 0x0000007F#32 ∧
  (∀ (s : State) (rd : RegIdx) (imm20 : BitVec 20),
    RetiresWith (exec (.auipc rd imm20) s) s rd (wordOf (s.pc.toNat + wrapN 32 (imm20.toNat * 4096))) (s.pc + 4#64)) ∧
  (∀ (s : State) (rd : RegIdx) (offset : BitVec 21),
    RetiresWith (exec (.jal rd offset) s) s rd (s.pc + 4#64) (wordOf (s.pc.toNat + offset.toInt)))

/-- JALR: the row, the link, and the target with bit 0 cleared, from the old `x[rs1]`; another funct3 matches no row (decision
D5). -/
def Obligations.JalrResult : Prop :=
  Selects (fun w => .jalr (Enc.rd w) (Enc.rs1 w) (Enc.immI w)) 0x00000067#32 0x0000707F#32 ∧
  (∀ w : Word32, Enc.opcode w = 0b1100111#7 → Enc.funct3 w ≠ 0#3 → MatchesNoRow w) ∧
  ∀ (s : State) (rd rs1 : RegIdx) (imm : BitVec 12),
    RetiresWith (exec (.jalr rd rs1 imm) s) s rd (s.pc + 4#64) (wordOf (((s.readX rs1).toNat + imm.toInt) / 2 * 2))

/-- The six branches: the row, the condition, the target `pc + offset` when it holds and `pc + 4` when it does not; no register is
written. -/
def Obligations.BranchResults : Prop :=
  BranchesOn .beq 0x00000063#32 0x0000707F#32 (fun a b => a = b) ∧
  BranchesOn .bne 0x00001063#32 0x0000707F#32 (fun a b => a ≠ b) ∧
  BranchesOn .blt 0x00004063#32 0x0000707F#32 (fun a b => signedN 64 a < signedN 64 b) ∧
  BranchesOn .bge 0x00005063#32 0x0000707F#32 (fun a b => signedN 64 a ≥ signedN 64 b) ∧
  BranchesOn .bltu 0x00006063#32 0x0000707F#32 (fun a b => a.toNat < b.toNat) ∧
  BranchesOn .bgeu 0x00007063#32 0x0000707F#32 (fun a b => a.toNat ≥ b.toNat)

/-- The six conditions partition: of each pair exactly one branch is taken (read where taken and not taken lead to different
addresses, that is for an offset other than 4). -/
def Obligations.BranchConditionsPartition : Prop :=
  ∀ p ∈ [(Instr.beq, Instr.bne), (.blt, .bge), (.bltu, .bgeu)],
    ∀ (s : State) (rs1 rs2 : RegIdx) (offset : BitVec 13), offset ≠ 4#13 →
      ∃ t u, exec (p.1 rs1 rs2 offset) s = .next t ∧ exec (p.2 rs1 rs2 offset) s = .next u ∧
        ((t.pc = wordOf (s.pc.toNat + offset.toInt) ∧ u.pc = s.pc + 4#64 ∧ t.pc ≠ u.pc) ∨
         (u.pc = wordOf (s.pc.toNat + offset.toInt) ∧ t.pc = s.pc + 4#64 ∧ t.pc ≠ u.pc))

/-! ## Memory -/

/-- The effective address is the sum modulo 2^64 (decision D30). -/
def Obligations.EffectiveAddressWraps : Prop :=
  ∀ (s : State) (rs1 : RegIdx) (imm : BitVec 12), effectiveAddr s rs1 imm = wordOf ((s.readX rs1).toNat + imm.toInt)

/-- LB, LH, LW, LBU, LHU and LWU: the row; cause 4 when misaligned, cause 5 when unmapped; else the bytes read, sign- or
zero-extended. The condition of the misaligned cause is the spec's decision D8 (20_memory.md R108), repeated in each rule. -/
def Obligations.LoadResults : Prop :=
  LoadsAs .lb 0x00000003#32 0x0000707F#32 1 (fun v => sextN 8 v) ∧
  LoadsAs .lh 0x00001003#32 0x0000707F#32 2 (fun v => sextN 16 v) ∧
  LoadsAs .lw 0x00002003#32 0x0000707F#32 4 (fun v => sextN 32 v) ∧
  LoadsAs .lbu 0x00004003#32 0x0000707F#32 1 (fun v => wordOf v) ∧
  LoadsAs .lhu 0x00005003#32 0x0000707F#32 2 (fun v => wordOf v) ∧
  LoadsAs .lwu 0x00006003#32 0x0000707F#32 4 (fun v => wordOf v)

/-- LD reads 8 bytes and writes all 64 bits: decision D11 (90_conflicts.md C1). -/
def Obligations.LdLoadsAllBits : Prop :=
  LoadsAs .ld 0x00003003#32 0x0000707F#32 8 (fun v => wordOf v)

/-- Which byte a read sees, by the region of its address: MainMemory's and BootRom's bytes at the address less the region's
start, 0 in the two stubs, none outside every region. -/
def Obligations.BytesByRegion : Prop :=
  ∀ (s : State) (a : Word), configValid s.cfg = true →
    (InRam s.cfg a → s.byteAt a = some (s.ram.readByte (a.toNat - s.cfg.dramStart.toNat))) ∧
    (InRom s.cfg a → s.byteAt a = some (s.rom.readByte (a.toNat - s.cfg.dtbStart.toNat))) ∧
    (InConsole s.cfg a → s.byteAt a = some 0#8) ∧
    (InTimer s.cfg a → s.byteAt a = some 0#8) ∧
    (¬Mapped s.cfg a → s.byteAt a = none)

/-- SB, SH, SW and SD: the row; cause 6 when misaligned, cause 7 when unmapped; in MainMemory exactly the bytes of the width are
replaced. The condition of the misaligned cause is the spec's decision D8, repeated in each rule. -/
def Obligations.StoreResults : Prop :=
  StoresAs .sb 0x00000023#32 0x0000707F#32 1 ∧
  StoresAs .sh 0x00001023#32 0x0000707F#32 2 ∧
  StoresAs .sw 0x00002023#32 0x0000707F#32 4 ∧
  StoresAs .sd 0x00003023#32 0x0000707F#32 8

/-- Stores outside MainMemory: BootRom refuses (decision D10), the timer ignores, the console emits the low byte at its first
address and nothing elsewhere (decision D23). -/
def Obligations.StoresOutsideMainMemory : Prop :=
  StoresToDevices .sb 1 ∧ StoresToDevices .sh 2 ∧ StoresToDevices .sw 4 ∧ StoresToDevices .sd 8

/-- A store into MainMemory followed by a load of the same width at the same address gives the value stored: zero-extended by the
unsigned load, sign-extended by the signed one. -/
def Obligations.StoreThenLoadRoundTrip : Prop :=
  ∀ (s : State) (rd rs1 rs2 : RegIdx) (imm : BitVec 12), configValid s.cfg = true →
    InRam s.cfg (effectiveAddr s rs1 imm) →
    (∃ t, exec (.sb rs1 rs2 imm) s = .next t ∧
      RetiresWith (exec (.lbu rd rs1 imm) t) t rd (wordOf (unsignedN 8 (s.readX rs2))) (t.pc + 4#64) ∧
      RetiresWith (exec (.lb rd rs1 imm) t) t rd (sextN 8 (unsignedN 8 (s.readX rs2))) (t.pc + 4#64)) ∧
    ((effectiveAddr s rs1 imm).toNat % 2 = 0 → ∃ t, exec (.sh rs1 rs2 imm) s = .next t ∧
      RetiresWith (exec (.lhu rd rs1 imm) t) t rd (wordOf (unsignedN 16 (s.readX rs2))) (t.pc + 4#64) ∧
      RetiresWith (exec (.lh rd rs1 imm) t) t rd (sextN 16 (unsignedN 16 (s.readX rs2))) (t.pc + 4#64)) ∧
    ((effectiveAddr s rs1 imm).toNat % 4 = 0 → ∃ t, exec (.sw rs1 rs2 imm) s = .next t ∧
      RetiresWith (exec (.lwu rd rs1 imm) t) t rd (wordOf (unsignedN 32 (s.readX rs2))) (t.pc + 4#64) ∧
      RetiresWith (exec (.lw rd rs1 imm) t) t rd (sextN 32 (unsignedN 32 (s.readX rs2))) (t.pc + 4#64)) ∧
    ((effectiveAddr s rs1 imm).toNat % 8 = 0 → ∃ t, exec (.sd rs1 rs2 imm) s = .next t ∧
      RetiresWith (exec (.ld rd rs1 imm) t) t rd (s.readX rs2) (t.pc + 4#64))

/-- A narrower read inside a wider store sees its part of the value stored (little-endian). -/
def Obligations.NarrowReadAfterWideStore : Prop :=
  ∀ p ∈ [(Instr.sb, 1), (.sh, 2), (.sw, 4), (.sd, 8)],
    ∀ (s : State) (rs1 rs2 : RegIdx) (imm : BitVec 12), configValid s.cfg = true →
      InRam s.cfg (effectiveAddr s rs1 imm) → (effectiveAddr s rs1 imm).toNat % p.2 = 0 →
      ∃ t, exec (p.1 rs1 rs2 imm) s = .next t ∧
        ∀ k m, k + m ≤ p.2 →
          t.leAt (effectiveAddr s rs1 imm + BitVec.ofNat 64 k) m = (s.readX rs2).toNat / 256 ^ k % 256 ^ m

/-- FENCE and FENCE.I, whatever their fields, advance `pc` and change nothing else (decision D20). -/
def Obligations.FencesOnlyAdvance : Prop :=
  Selects (fun w => .fence (Enc.fm w) (Enc.pred w) (Enc.succ w) (Enc.rs1 w) (Enc.rd w)) 0x0000000F#32 0x0000707F#32 ∧
  Selects (fun w => .fenceI (Enc.fm w) (Enc.pred w) (Enc.succ w) (Enc.rs1 w) (Enc.rd w)) 0x0000100F#32 0x0000707F#32 ∧
  ∀ (s : State) (fm pred succ : BitVec 4) (rs1 rd : RegIdx),
    RetiresWith (exec (.fence fm pred succ rs1 rd) s) s 0#5 0#64 (s.pc + 4#64) ∧
    RetiresWith (exec (.fenceI fm pred succ rs1 rd) s) s 0#5 0#64 (s.pc + 4#64)

/-! ## CSRs and SYSTEM -/

/-- The six CSR instructions: the row, the old value to `x[rd]`, the new value to the CSR, for every CSR number and in every
mode; nothing else changes. -/
def Obligations.CsrInstructionResults : Prop :=
  UpdatesCsrR .csrrw 0x00001073#32 0x0000707F#32 (fun _ v => v) ∧
  UpdatesCsrR .csrrs 0x00002073#32 0x0000707F#32 (fun t v => t ||| v) ∧
  UpdatesCsrR .csrrc 0x00003073#32 0x0000707F#32 (fun t v => t &&& ~~~v) ∧
  UpdatesCsrI .csrrwi 0x00005073#32 0x0000707F#32 (fun _ v => v) ∧
  UpdatesCsrI .csrrsi 0x00006073#32 0x0000707F#32 (fun t v => t ||| v) ∧
  UpdatesCsrI .csrrci 0x00007073#32 0x0000707F#32 (fun t v => t &&& ~~~v)

/-- Any of the 4096 CSRs returns exactly the 64 bits last written: `csrrw x0, c, rs` then `csrrs rd, c, x0`. -/
def Obligations.CsrWriteThenRead : Prop :=
  ∀ (s : State) (c : CsrIdx) (rs rd : RegIdx), rd ≠ 0#5 →
    ∃ t u, exec (.csrrw 0#5 c rs) s = .next t ∧ exec (.csrrs rd c 0#5) t = .next u ∧
      u.readX rd = s.readX rs ∧ u.readCsr c = s.readX rs ∧
      (∀ c', c' ≠ c → u.readCsr c' = s.readCsr c') ∧ u.mode = s.mode

/-- ECALL: the word, and the trap it takes in each mode, `mepc` being its own address; delivered as an ordinary trap (decision
D26). -/
def Obligations.EcallTraps : Prop :=
  decodeWord 0x00000073#32 = some .ecall ∧
  ∀ s : State,
    (s.mode = .user → Traps (exec .ecall s) s .environmentCallFromUser) ∧
    (s.mode = .supervisor → Traps (exec .ecall s) s .environmentCallFromSupervisor) ∧
    (s.mode = .machine → Traps (exec .ecall s) s .environmentCallFromMachine)

/-- MRET: the word, the mode from `mstatus[12:11]`, `pc` from `mepc`, whole, and nothing else; the reserved 10 raises (decision
D15). -/
def Obligations.MretReturns : Prop :=
  decodeWord 0x30200073#32 = some .mret ∧
  ∀ s : State,
    ((s.readCsr 0x300#12).toNat / 2 ^ 11 % 4 = 2 → Traps (exec .mret s) s (.illegalInstruction .mretReservedMpp)) ∧
    (∀ m mpp, (mpp, m) ∈ [(0, Mode.user), (1, Mode.supervisor), (3, Mode.machine)] →
      (s.readCsr 0x300#12).toNat / 2 ^ 11 % 4 = mpp →
      ∃ t, exec .mret s = .next t ∧ t.mode = m ∧ t.pc = s.readCsr 0x341#12 ∧ SameRegs s t ∧ SameCsrs s t ∧ SameMemory s t ∧
        t.cfg = s.cfg ∧ t.rom = s.rom ∧ t.console = s.console ∧ t.report = some .retired)

/-- The rows that always raise IllegalInstruction, each with its label, whatever the operands and the state (decisions D6, D7). -/
def Obligations.AlwaysRaisingInstructions : Prop :=
  ∀ (s : State) (aq rl : Bool) (rd rs1 rs2 : RegIdx),
    Traps (exec (.mulhsu rd rs1 rs2) s) s (.illegalInstruction .unimplementedMulhsu) ∧
    Traps (exec .wfi s) s (.illegalInstruction .noInterruptSource) ∧
    Traps (exec (.lrW aq rl rd rs1 rs2) s) s (.illegalInstruction .unimplementedLrSc) ∧
    Traps (exec (.lrD aq rl rd rs1 rs2) s) s (.illegalInstruction .unimplementedLrSc) ∧
    Traps (exec (.scW aq rl rd rs1 rs2) s) s (.illegalInstruction .unimplementedLrSc) ∧
    Traps (exec (.scD aq rl rd rs1 rs2) s) s (.illegalInstruction .unimplementedLrSc) ∧
    Traps (exec (.amoswapW aq rl rd rs1 rs2) s) s (.illegalInstruction .illegalInstruction) ∧
    Traps (exec (.amoswapD aq rl rd rs1 rs2) s) s (.illegalInstruction .illegalInstruction)

/-! ## AMOs -/

/-- The eight AMOs on 32 bits: the row, the traps of the two accesses, the word stored and the old word sign-extended into `x[rd]`,
and what they do on the devices; `x[rs1]` and `x[rs2]` are sampled first, and the comparisons are on 32 bits (decision D18). -/
def Obligations.AmoWordResults : Prop :=
  AmoAs .amoaddW 0x0000202F#32 0xF800707F#32 4 (fun old v => (old + unsignedN 32 v) % 2 ^ 32) (fun old => sextN 32 old) ∧
  AmoAs .amoxorW 0x2000202F#32 0xF800707F#32 4 (fun old v => old ^^^ unsignedN 32 v) (fun old => sextN 32 old) ∧
  AmoAs .amoandW 0x6000202F#32 0xF800707F#32 4 (fun old v => old &&& unsignedN 32 v) (fun old => sextN 32 old) ∧
  AmoAs .amoorW 0x4000202F#32 0xF800707F#32 4 (fun old v => old ||| unsignedN 32 v) (fun old => sextN 32 old) ∧
  AmoAs .amominW 0x8000202F#32 0xF800707F#32 4 (fun old v => if wrapN 32 old ≤ signedN 32 v then old else unsignedN 32 v)
    (fun old => sextN 32 old) ∧
  AmoAs .amomaxW 0xA000202F#32 0xF800707F#32 4 (fun old v => if wrapN 32 old ≥ signedN 32 v then old else unsignedN 32 v)
    (fun old => sextN 32 old) ∧
  AmoAs .amominuW 0xC000202F#32 0xF800707F#32 4 (fun old v => if old ≤ unsignedN 32 v then old else unsignedN 32 v)
    (fun old => sextN 32 old) ∧
  AmoAs .amomaxuW 0xE000202F#32 0xF800707F#32 4 (fun old v => if old ≥ unsignedN 32 v then old else unsignedN 32 v)
    (fun old => sextN 32 old)

/-- The eight AMOs on 64 bits (decision D18). -/
def Obligations.AmoDoublewordResults : Prop :=
  AmoAs .amoaddD 0x0000302F#32 0xF800707F#32 8 (fun old v => (old + v.toNat) % 2 ^ 64) (fun old => wordOf old) ∧
  AmoAs .amoxorD 0x2000302F#32 0xF800707F#32 8 (fun old v => old ^^^ v.toNat) (fun old => wordOf old) ∧
  AmoAs .amoandD 0x6000302F#32 0xF800707F#32 8 (fun old v => old &&& v.toNat) (fun old => wordOf old) ∧
  AmoAs .amoorD 0x4000302F#32 0xF800707F#32 8 (fun old v => old ||| v.toNat) (fun old => wordOf old) ∧
  AmoAs .amominD 0x8000302F#32 0xF800707F#32 8 (fun old v => if wrapN 64 old ≤ signedN 64 v then old else v.toNat)
    (fun old => wordOf old) ∧
  AmoAs .amomaxD 0xA000302F#32 0xF800707F#32 8 (fun old v => if wrapN 64 old ≥ signedN 64 v then old else v.toNat)
    (fun old => wordOf old) ∧
  AmoAs .amominuD 0xC000302F#32 0xF800707F#32 8 (fun old v => if old ≤ v.toNat then old else v.toNat) (fun old => wordOf old) ∧
  AmoAs .amomaxuD 0xE000302F#32 0xF800707F#32 8 (fun old v => if old ≥ v.toNat then old else v.toNat) (fun old => wordOf old)

/-- `aq` and `rl` change nothing, on the implemented rows and on the rows that always raise (decision D18). -/
def Obligations.AmoIgnoresOrderingBits : Prop :=
  ∀ mk ∈ amoCtors, ∀ (s : State) (aq rl aq' rl' : Bool) (rd rs1 rs2 : RegIdx),
    exec (mk aq rl rd rs1 rs2) s = exec (mk aq' rl' rd rs1 rs2) s

/-! ## Exceptions -/

/-- Taking an exception, any of the nine: the code into `mcause`, 0 into `mtval`, the `pc` of the instruction into `mepc`, `mtvec`
as it was, whole, into `pc`, the report, and nothing else. -/
def Obligations.TrapEntryWritesFour : Prop :=
  ∀ (s : State) (e : Exc), ∃ t, raise e s = .next t ∧ t.readCsr 0x342#12 = e.code ∧ t.readCsr 0x343#12 = 0#64 ∧
    t.readCsr 0x341#12 = s.pc ∧ t.pc = s.readCsr 0x305#12 ∧
    (∀ c, c ≠ 0x341#12 → c ≠ 0x342#12 → c ≠ 0x343#12 → t.readCsr c = s.readCsr c) ∧
    SameRegs s t ∧ SameMemory s t ∧ SameRest s t ∧ t.console = s.console ∧ t.report = some (.trapped e)

/-- The codes of the nine exceptions and the labels; HardwareError is 19 by decision D12, the labels are a closed list by decision
D27. -/
def Obligations.ExceptionCodesAndLabels : Prop :=
  (∀ l, (Exc.illegalInstruction l).code = 2#64) ∧ Exc.loadAddressMisaligned.code = 4#64 ∧ Exc.loadAccessFault.code = 5#64 ∧
  Exc.storeAddressMisaligned.code = 6#64 ∧ Exc.storeAccessFault.code = 7#64 ∧ Exc.environmentCallFromUser.code = 8#64 ∧
  Exc.environmentCallFromSupervisor.code = 9#64 ∧ Exc.environmentCallFromMachine.code = 11#64 ∧
  Exc.hardwareError.code = 19#64 ∧
  (Exc.illegalInstruction .compressed).label = some "unsupported compressed instruction" ∧
  (Exc.illegalInstruction .noInterruptSource).label = some "unsupported: no interrupt source" ∧
  (Exc.illegalInstruction .unimplementedMulhsu).label = some "unimplemented: MULHSU" ∧
  (Exc.illegalInstruction .unimplementedLrSc).label = some "unimplemented: LR/SC" ∧
  (Exc.illegalInstruction .mretReservedMpp).label = some "MRET with reserved MPP" ∧
  (Exc.illegalInstruction .illegalInstruction).label = some "illegal instruction" ∧
  Exc.environmentCallFromUser.label = some "environment call from U" ∧
  Exc.environmentCallFromSupervisor.label = some "environment call from S" ∧
  Exc.environmentCallFromMachine.label = some "environment call from M" ∧
  (∀ e ∈ [Exc.loadAddressMisaligned, .loadAccessFault, .storeAddressMisaligned, .storeAccessFault, .hardwareError],
    e.label = none)

/-- When the four bytes at a `pc` that is a multiple of 4 decode to an instruction, the step is that instruction's meaning at that
state: `pc` still holds its address, and nothing is added around it. -/
def Obligations.StepRunsTheDecodedInstruction : Prop :=
  ∀ (s : State) (b0 b1 b2 b3 : Byte) (i : Instr), configValid s.cfg = true → s.pc.toNat % 4 = 0 →
    s.byteAt s.pc = some b0 → s.byteAt (s.pc + 1#64) = some b1 → s.byteAt (s.pc + 2#64) = some b2 →
    s.byteAt (s.pc + 3#64) = some b3 → decode [b0, b1, b2, b3] = .ok (i, []) → step s = exec i s

/-- The steps that run no instruction, in the order of the checks: an odd `pc`, an unmapped `pc`, a halfword that is not
uncompressed, a `pc` that is 2 modulo 4, a word that matches no row. Fetch faults use the load codes by decision D9. -/
def Obligations.FetchFailures : Prop :=
  ∀ s : State, configValid s.cfg = true →
    (s.pc.toNat % 2 = 1 → Traps (step s) s .loadAddressMisaligned) ∧
    (s.pc.toNat % 2 = 0 → ¬Mapped s.cfg s.pc → Traps (step s) s .loadAccessFault) ∧
    (s.pc.toNat % 2 = 0 → Mapped s.cfg s.pc → s.leAt s.pc 2 % 4 ≠ 3 →
      Traps (step s) s (.illegalInstruction .compressed)) ∧
    (s.pc.toNat % 4 = 2 → Mapped s.cfg s.pc → s.leAt s.pc 2 % 4 = 3 → Traps (step s) s .loadAddressMisaligned) ∧
    (s.pc.toNat % 4 = 0 → Mapped s.cfg s.pc → s.leAt s.pc 2 % 4 = 3 →
      decodeWord (BitVec.ofNat 32 (s.leAt s.pc 4)) = none → Traps (step s) s (.illegalInstruction .illegalInstruction))

/-- Step always succeeds, any number of times: it retires one instruction or delivers one trap. -/
def Obligations.StepAlwaysSucceeds : Prop :=
  (∀ s : State, ∃ t, step s = .next t ∧
    (t.report = some .retired ∨ ∃ e, t.report = some (.trapped e) ∧ t.pc = s.readCsr 0x305#12)) ∧
  ∀ (k : Nat) (s : State), ∃ t, Reaches k s t

/-- A step that delivers a trap changes nothing but what taking the exception changes: no write of the abandoned instruction is
left (decision D19). -/
def Obligations.TrappedStepOnlyTakesTheException : Prop :=
  ∀ (s t : State) (e : Exc), step s = .next t → t.report = some (.trapped e) → Traps (step s) s e ∧ t = trapEntry e s

/-- No program makes the machine raise HardwareError. -/
def Obligations.HardwareErrorIsUnreachable : Prop :=
  ∀ s t : State, step s = .next t → t.report ≠ some (.trapped .hardwareError)

/-! ## Rules of the whole machine -/

/-- A step changes the mode only by MRET, to the mode that `mstatus[12:11]` encodes. -/
def Obligations.OnlyMretChangesMode : Prop :=
  ∀ s t : State, step s = .next t → t.mode ≠ s.mode →
    (∃ w, fetch s = .ok w ∧ decodeWord w = some .mret) ∧ modeOfMpp s.mpp = some t.mode ∧ t.pc = s.readCsr 0x341#12

/-- The mode decides nothing but the cause of ECALL (decision D16): any other instruction, run in another mode, does the same. -/
def Obligations.ModeMattersToEcallOnly : Prop :=
  ∀ (i : Instr) (s : State) (m : Mode), i ≠ .ecall →
    ∃ t t', exec i s = .next t ∧ exec i { s with mode := m } = .next t' ∧ t' = { t with mode := t'.mode } ∧
      ((t.mode = s.mode ∧ t'.mode = m) ∨ (i = .mret ∧ t'.mode = t.mode))

/-- No step, and no run, changes the construction record or a byte of BootRom. -/
def Obligations.ConfigurationAndBootRomAreConstant : Prop :=
  ∀ (k : Nat) (s t : State), Reaches k s t → t.cfg = s.cfg ∧ t.rom = s.rom ∧
    ∀ a, configValid s.cfg = true → InRom s.cfg a → t.byteAt a = s.byteAt a

/-- The console only grows, by one byte at most in a step, and only when a store or an AMO reaches the console's first address; a
store emits the low byte of its register. -/
def Obligations.ConsoleGrowsOnlyByStores : Prop :=
  ∀ s t : State, step s = .next t → t.console = s.console ∨
    ∃ b w i, t.console = s.console ++ [b] ∧ fetch s = .ok w ∧ decodeWord w = some i ∧
      ((∃ mk ∈ [Instr.sb, .sh, .sw, .sd], ∃ rs1 rs2 imm, i = mk rs1 rs2 imm ∧
          effectiveAddr s rs1 imm = s.cfg.uartStart ∧ b = (s.readX rs2).setWidth 8) ∨
       (∃ mk ∈ amoCtors, ∃ aq rl rd rs1 rs2, i = mk aq rl rd rs1 rs2 ∧ s.readX rs1 = s.cfg.uartStart))

/-- The console and the DIAG report are outputs: nothing in the machine reads them. -/
def Obligations.OutputsAreNotRead : Prop :=
  ∀ (s : State) (console : List Byte) (report : Option Report),
    ∃ t t' emitted, step s = .next t ∧ step { s with console := console, report := report } = .next t' ∧
      t.console = s.console ++ emitted ∧ t' = { t with console := console ++ emitted }

/-- A trap vector that cannot be fetched from makes a fault loop that is a fixed point: once a trap has led there and the next
fetch has trapped, no step changes the state again (decision D33). -/
def Obligations.FaultLoopIsAFixedPoint : Prop :=
  ∀ s t : State, s.Inv → step s = .next t → s.pc = s.readCsr 0x305#12 →
    (s.pc.toNat % 4 ≠ 0 ∨ ¬Mapped s.cfg s.pc) → step t = .next t

/-- The word stored by one instruction is what the next step runs, when the store went to the next address: no fence is needed. -/
def Obligations.StoreIsSeenByTheNextFetch : Prop :=
  ∀ (s : State) (rs1 rs2 : RegIdx) (imm : BitVec 12) (i : Instr), configValid s.cfg = true →
    effectiveAddr s rs1 imm = s.pc + 4#64 → (s.pc + 4#64).toNat % 4 = 0 → InRam s.cfg (s.pc + 4#64) →
    decodeWord ((s.readX rs2).setWidth 32) = some i →
    ∃ t, exec (.sw rs1 rs2 imm) s = .next t ∧ t.pc = s.pc + 4#64 ∧ step t = exec i t

/-- In a valid configuration at most one region contains an address, and no order of the table changes the lookup. -/
def Obligations.LookupIgnoresTableOrder : Prop :=
  ∀ (cfg : Config) (a : Word), configValid cfg = true →
    (∀ r ∈ regionTable cfg, ∀ q ∈ regionTable cfg, regionHas r a = true → regionHas q a = true → r = q) ∧
    (∀ table : List Region, table.Perm (regionTable cfg) → (table.find? fun r => regionHas r a) = regionOf cfg a)

/-- `x0` reads 0 whatever is written to it, and a write to it changes nothing; an instruction with `rd = x0` keeps its other
effects. -/
def Obligations.RegisterZeroIsHardwired : Prop :=
  ∀ (s : State) (v : Word), s.readX 0#5 = 0#64 ∧ (s.writeX 0#5 v).readX 0#5 = 0#64 ∧ s.writeX 0#5 v = s ∧
    (∀ i t, exec i s = .next t → t.readX 0#5 = 0#64) ∧
    (∀ rs1 imm, RetiresWith (exec (.jalr 0#5 rs1 imm) s) s 0#5 0#64 (jalrTarget s rs1 imm)) ∧
    (∀ csr rs1, UpdatesCsr (exec (.csrrw 0#5 csr rs1) s) s 0#5 csr (s.readX rs1))

/-! ## Reset and the invariant -/

/-- The state after construction: `sp`, `a1`, `misa`, `pc` and the mode as the spec says; the zeros are the spec's decision D3 and
the value of `misa` its decision D2 (log entries 3 and 4). That `sp` wraps to 0 where MainMemory ends at 2^64 is the model's own
deduction (log entry 14). -/
def Obligations.ConstructedValues : Prop :=
  ∀ cfg : Config,
    (State.construct cfg).readX 2#5 = cfg.dramStart + BitVec.ofNat 64 cfg.dramSize ∧
    (State.construct cfg).readX 11#5 = cfg.dtbStart ∧
    (∀ r, r ≠ 2#5 → r ≠ 11#5 → (State.construct cfg).readX r = 0#64) ∧
    (State.construct cfg).readCsr 0x301#12 = 0x8000000000000100#64 ∧
    (∀ c, c ≠ 0x301#12 → (State.construct cfg).readCsr c = 0#64) ∧
    (State.construct cfg).pc = cfg.dramStart ∧ (State.construct cfg).mode = .machine ∧ (State.construct cfg).console = [] ∧
    (State.construct cfg).cfg = cfg

/-- Construction and loading: an invalid configuration or an image that does not fit builds no state; else MainMemory holds the
program from `DRAM_START` on and BootRom the blob, every other byte of them 0 (log entry 6), and the rest is as constructed. -/
def Obligations.BootLoadsTheImages : Prop :=
  ∀ (cfg : Config) (program blob : List Byte),
    (State.boot cfg program blob = none ↔
      configValid cfg = false ∨ cfg.dramSize < program.length ∨ romSize < blob.length) ∧
    ∀ s, State.boot cfg program blob = some s →
      (∀ k, k < cfg.dramSize → s.byteAt (cfg.dramStart + BitVec.ofNat 64 k) = some (program.getD k 0#8)) ∧
      (∀ k, k < romSize → s.byteAt (cfg.dtbStart + BitVec.ofNat 64 k) = some (blob.getD k 0#8)) ∧
      s.pc = cfg.dramStart ∧ s.mode = .machine ∧ s.cfg = cfg ∧ s.console = [] ∧
      SameRegs (State.construct cfg) s ∧ SameCsrs (State.construct cfg) s

/-- The invariant holds after reset, and after every construction and loading that builds a state. That `State.reset` is built from
TESTCFG (log entry 1) and that storage and the CSR file are lists in canonical form (log entries 13 and 18)
is the model's choice. -/
def Obligations.InvAtResetAndBoot : Prop :=
  State.reset.Inv ∧ ∀ cfg program blob s, State.boot cfg program blob = some s → s.Inv

/-- Every step keeps the invariant: a valid configuration, and the CSR file, MainMemory and BootRom in canonical form within their
sizes. -/
def Obligations.StepKeepsInv : Prop :=
  ∀ s t : State, s.Inv → step s = .next t → t.Inv

/-- A program word placed for the next step is what that step runs (log entry 9), in every valid configuration and whatever `pc`
was. -/
def Obligations.PlacedWordRuns : Prop :=
  ∀ (s : State) (nbits w : Nat) (i : Instr), configValid s.cfg = true → decodeTableWord nbits w = some i →
    step (s.withFetchWord nbits w) = exec i (s.withFetchWord nbits w)

/-- The four regions of the hardware: an address is in one exactly when it is at or above its base and below its base plus its size,
and mapped exactly when it is in one of the four. That three of the sizes are fixed is the spec's decision D22 (log entry 2). -/
def Obligations.RegionBounds : Prop :=
  ∀ (cfg : Config) (a : Word),
    (InRom cfg a ↔ cfg.dtbStart.toNat ≤ a.toNat ∧ a.toNat < cfg.dtbStart.toNat + 0xF000) ∧
    (InConsole cfg a ↔ cfg.uartStart.toNat ≤ a.toNat ∧ a.toNat < cfg.uartStart.toNat + 0x100) ∧
    (InTimer cfg a ↔ cfg.clintStart.toNat ≤ a.toNat ∧ a.toNat < cfg.clintStart.toNat + 0x10000) ∧
    (InRam cfg a ↔ cfg.dramStart.toNat ≤ a.toNat ∧ a.toNat < cfg.dramStart.toNat + cfg.dramSize) ∧
    (Mapped cfg a ↔ InRom cfg a ∨ InConsole cfg a ∨ InTimer cfg a ∨ InRam cfg a)

end
end

