-- ==== Sys2Proof/Laws/Sparse.lean ====
section
/-! SUPPORT. Laws/Sparse.lean: the laws of sparse storage. Reads after writes need no canonical form; the canonical form is
kept by every write, and two canonical lists that read alike are equal. -/

namespace Sys2Proof.Machine

variable {β : Type} {d : β}

theorem Sparse.get_eq_default_of_not_mem {l : List (Nat × β)} {k : Nat} (h : ∀ p ∈ l, p.1 ≠ k) : Sparse.get d l k = d := by
  induction l with
  | nil => rfl
  | cons p rest ih =>
    have hp := h p (by simp)
    simp only [Sparse.get, if_neg hp]
    exact ih fun q hq => h q (by simp [hq])

theorem Sparse.get_erase (l : List (Nat × β)) (k k' : Nat) :
    Sparse.get d (Sparse.erase l k) k' = if k' = k then d else Sparse.get d l k' := by
  induction l with
  | nil => simp [Sparse.erase, Sparse.get]
  | cons p rest ih =>
    unfold Sparse.erase at ih ⊢
    by_cases hp : p.1 = k
    · simp only [List.filter_cons, hp, ne_eq, not_true_eq_false, decide_false, Bool.false_eq_true, if_false, ih, Sparse.get]
      by_cases hk : k' = k
      · simp [hk]
      · simp [hk, Ne.symm hk]
    · simp only [List.filter_cons, ne_eq, hp, not_false_eq_true, decide_true, if_true, Sparse.get, ih]
      by_cases hk : k' = k
      · subst hk; simp [hp]
      · simp [hk]

theorem Sparse.get_insert {l : List (Nat × β)} {k : Nat} (v : β) (k' : Nat) (h : ∀ p ∈ l, p.1 ≠ k) :
    Sparse.get d (Sparse.insert l k v) k' = if k' = k then v else Sparse.get d l k' := by
  induction l with
  | nil => simp [Sparse.insert, Sparse.get, eq_comm]
  | cons p rest ih =>
    have hp := h p (by simp)
    have ih := ih fun q hq => h q (by simp [hq])
    unfold Sparse.insert
    by_cases hlt : k < p.1
    · simp [hlt, Sparse.get, eq_comm]
    · simp only [hlt, if_false, Sparse.get, ih]
      by_cases hk : k' = k
      · subst hk; simp [hp]
      · simp [hk]

theorem Sparse.mem_erase {l : List (Nat × β)} {k : Nat} {p : Nat × β} : p ∈ Sparse.erase l k ↔ p ∈ l ∧ p.1 ≠ k := by
  simp [Sparse.erase]

theorem Sparse.mem_insert {l : List (Nat × β)} {k : Nat} {v : β} {p : Nat × β} :
    p ∈ Sparse.insert l k v ↔ p = (k, v) ∨ p ∈ l := by
  induction l with
  | nil => simp [Sparse.insert]
  | cons q rest ih =>
    unfold Sparse.insert
    split
    · simp
    · simp only [List.mem_cons, ih]; tauto

theorem Sparse.pairwise_insert {l : List (Nat × β)} {k : Nat} (v : β) (hl : l.Pairwise fun p q => p.1 < q.1)
    (h : ∀ p ∈ l, p.1 ≠ k) : (Sparse.insert l k v).Pairwise fun p q => p.1 < q.1 := by
  induction l with
  | nil => simp [Sparse.insert]
  | cons p rest ih =>
    obtain ⟨hp, hrest⟩ := List.pairwise_cons.mp hl
    have hne := h p (by simp)
    unfold Sparse.insert
    split
    · next hlt =>
      refine List.pairwise_cons.mpr ⟨fun q hq => ?_, hl⟩
      rcases List.mem_cons.mp hq with rfl | hq
      · exact hlt
      · exact Nat.lt_trans hlt (hp q hq)
    · next hlt =>
      refine List.pairwise_cons.mpr ⟨fun q hq => ?_, ih hrest fun q hq => h q (by simp [hq])⟩
      rcases Sparse.mem_insert.mp hq with rfl | hq
      · exact Nat.lt_of_le_of_ne (Nat.le_of_not_lt hlt) hne
      · exact hp q hq

variable [DecidableEq β]

/-- Reading after a write: the value written at its key, every other key as before. -/
theorem Sparse.get_set (l : List (Nat × β)) (k : Nat) (v : β) (k' : Nat) :
    Sparse.get d (Sparse.set d l k v) k' = if k' = k then v else Sparse.get d l k' := by
  unfold Sparse.set
  split
  · next h => rw [Sparse.get_erase, h]
  · rw [Sparse.get_insert v k' fun p hp => (Sparse.mem_erase.mp hp).2, Sparse.get_erase]
    split <;> simp_all

theorem Sparse.wf_iff {bound : Nat} {l : List (Nat × β)} :
    Sparse.wf d bound l = true ↔ l.Pairwise (fun p q => p.1 < q.1) ∧ ∀ p ∈ l, p.1 < bound ∧ p.2 ≠ d := by
  simp [Sparse.wf]

/-- Every write keeps the canonical form. -/
theorem Sparse.wf_set {bound : Nat} {l : List (Nat × β)} {k : Nat} (v : β) (hl : Sparse.wf d bound l = true)
    (hk : k < bound) : Sparse.wf d bound (Sparse.set d l k v) = true := by
  rw [Sparse.wf_iff] at hl ⊢
  obtain ⟨hs, ha⟩ := hl
  have hse : (Sparse.erase l k).Pairwise fun p q => p.1 < q.1 := hs.filter _
  unfold Sparse.set
  split
  · exact ⟨hse, fun p hp => ha p (Sparse.mem_erase.mp hp).1⟩
  · next hv =>
    refine ⟨Sparse.pairwise_insert v hse fun p hp => (Sparse.mem_erase.mp hp).2, fun p hp => ?_⟩
    rcases Sparse.mem_insert.mp hp with rfl | hp
    · exact ⟨hk, hv⟩
    · exact ha p (Sparse.mem_erase.mp hp).1

omit [DecidableEq β] in
theorem Sparse.get_of_mem {l : List (Nat × β)} (hs : l.Pairwise fun p q => p.1 < q.1) {p : Nat × β} (hp : p ∈ l) :
    Sparse.get d l p.1 = p.2 := by
  induction l with
  | nil => simp at hp
  | cons q rest ih =>
    obtain ⟨hq, hrest⟩ := List.pairwise_cons.mp hs
    rcases List.mem_cons.mp hp with rfl | hp
    · simp [Sparse.get]
    · have := hq p hp
      simp only [Sparse.get, if_neg (Nat.ne_of_lt this)]
      exact ih hrest hp

omit [DecidableEq β] in
theorem Sparse.mem_of_get_ne {l : List (Nat × β)} {k : Nat} (h : Sparse.get d l k ≠ d) : (k, Sparse.get d l k) ∈ l := by
  induction l with
  | nil => simp [Sparse.get] at h
  | cons q rest ih =>
    unfold Sparse.get at h ⊢
    split at h
    · next hq => simp only [← hq]; exact List.mem_cons_self
    · next hq => simp only [if_neg hq]; exact List.mem_cons_of_mem _ (ih h)

/-- Two canonical lists that read alike are equal: equal storage is equal data. -/
theorem Sparse.ext_of_wf {b b' : Nat} {l l' : List (Nat × β)} (hl : Sparse.wf d b l = true) (hl' : Sparse.wf d b' l' = true)
    (h : ∀ k, Sparse.get d l k = Sparse.get d l' k) : l = l' := by
  rw [Sparse.wf_iff] at hl hl'
  have key : ∀ {m m' : List (Nat × β)}, m.Pairwise (fun p q => p.1 < q.1) → (∀ p ∈ m, p.2 ≠ d) →
      (∀ k, Sparse.get d m k = Sparse.get d m' k) → ∀ p ∈ m, p ∈ m' := by
    intro m m' hm hd hk p hp
    have hg := Sparse.get_of_mem (d := d) hm hp
    have := Sparse.mem_of_get_ne (d := d) (l := m') (k := p.1) (by rw [← hk, hg]; exact hd p hp)
    rwa [← hk, hg] at this
  have h1 := key (m' := l') hl.1 (fun p hp => (hl.2 p hp).2) h
  have h2 := key (m' := l) hl'.1 (fun p hp => (hl'.2 p hp).2) fun k => (h k).symm
  have nd : ∀ {m : List (Nat × β)}, m.Pairwise (fun p q => p.1 < q.1) → m.Nodup := fun hm =>
    hm.imp fun {a b} hab he => by subst he; exact Nat.lt_irrefl _ hab
  have hp : l.Perm l' := (List.perm_ext_iff_of_nodup (nd hl.1) (nd hl'.1)).mpr fun a => ⟨h1 a, h2 a⟩
  exact hp.eq_of_pairwise (le := fun p q => p.1 < q.1)
    (fun a b _ _ hab hba => absurd (Nat.lt_trans hab hba) (Nat.lt_irrefl _)) hl.1 hl'.1

end Sys2Proof.Machine
end

