-- ==== Sys2Proof/Laws/State.lean ====
section
/-! SUPPORT. Laws/State.lean: one lemma per field per update, and the read-after-write laws of registers and CSRs, so that no
later proof unfolds a record update. -/

namespace Sys2Proof.Machine

/-! ## Writing a register: every other field -/

@[simp] theorem State.writeX_cfg (s : State) (r : RegIdx) (v : Word) : (s.writeX r v).cfg = s.cfg := by
  unfold State.writeX; split <;> rfl
@[simp] theorem State.writeX_csrs (s : State) (r : RegIdx) (v : Word) : (s.writeX r v).csrs = s.csrs := by
  unfold State.writeX; split <;> rfl
@[simp] theorem State.writeX_pc (s : State) (r : RegIdx) (v : Word) : (s.writeX r v).pc = s.pc := by
  unfold State.writeX; split <;> rfl
@[simp] theorem State.writeX_mode (s : State) (r : RegIdx) (v : Word) : (s.writeX r v).mode = s.mode := by
  unfold State.writeX; split <;> rfl
@[simp] theorem State.writeX_ram (s : State) (r : RegIdx) (v : Word) : (s.writeX r v).ram = s.ram := by
  unfold State.writeX; split <;> rfl
@[simp] theorem State.writeX_rom (s : State) (r : RegIdx) (v : Word) : (s.writeX r v).rom = s.rom := by
  unfold State.writeX; split <;> rfl
@[simp] theorem State.writeX_console (s : State) (r : RegIdx) (v : Word) : (s.writeX r v).console = s.console := by
  unfold State.writeX; split <;> rfl
@[simp] theorem State.writeX_report (s : State) (r : RegIdx) (v : Word) : (s.writeX r v).report = s.report := by
  unfold State.writeX; split <;> rfl

/-! ## Writing a CSR: every other field -/

@[simp] theorem State.writeCsr_cfg (s : State) (c : CsrIdx) (v : Word) : (s.writeCsr c v).cfg = s.cfg := rfl
@[simp] theorem State.writeCsr_regs (s : State) (c : CsrIdx) (v : Word) : (s.writeCsr c v).regs = s.regs := rfl
@[simp] theorem State.writeCsr_pc (s : State) (c : CsrIdx) (v : Word) : (s.writeCsr c v).pc = s.pc := rfl
@[simp] theorem State.writeCsr_mode (s : State) (c : CsrIdx) (v : Word) : (s.writeCsr c v).mode = s.mode := rfl
@[simp] theorem State.writeCsr_ram (s : State) (c : CsrIdx) (v : Word) : (s.writeCsr c v).ram = s.ram := rfl
@[simp] theorem State.writeCsr_rom (s : State) (c : CsrIdx) (v : Word) : (s.writeCsr c v).rom = s.rom := rfl
@[simp] theorem State.writeCsr_console (s : State) (c : CsrIdx) (v : Word) : (s.writeCsr c v).console = s.console := rfl
@[simp] theorem State.writeCsr_report (s : State) (c : CsrIdx) (v : Word) : (s.writeCsr c v).report = s.report := rfl

/-! ## Retiring: every field -/

@[simp] theorem State.retireTo_cfg (s : State) (a : Word) : (s.retireTo a).cfg = s.cfg := rfl
@[simp] theorem State.retireTo_regs (s : State) (a : Word) : (s.retireTo a).regs = s.regs := rfl
@[simp] theorem State.retireTo_csrs (s : State) (a : Word) : (s.retireTo a).csrs = s.csrs := rfl
@[simp] theorem State.retireTo_pc (s : State) (a : Word) : (s.retireTo a).pc = a := rfl
@[simp] theorem State.retireTo_mode (s : State) (a : Word) : (s.retireTo a).mode = s.mode := rfl
@[simp] theorem State.retireTo_ram (s : State) (a : Word) : (s.retireTo a).ram = s.ram := rfl
@[simp] theorem State.retireTo_rom (s : State) (a : Word) : (s.retireTo a).rom = s.rom := rfl
@[simp] theorem State.retireTo_console (s : State) (a : Word) : (s.retireTo a).console = s.console := rfl
@[simp] theorem State.retireTo_report (s : State) (a : Word) : (s.retireTo a).report = some .retired := rfl
@[simp] theorem State.retireTo_readX (s : State) (a : Word) (r : RegIdx) : (s.retireTo a).readX r = s.readX r := rfl
@[simp] theorem State.retireTo_readCsr (s : State) (a : Word) (c : CsrIdx) : (s.retireTo a).readCsr c = s.readCsr c := rfl

/-! ## Taking an exception: every field (60_exceptions.md R430, R431) -/

@[simp] theorem trapEntry_cfg (e : Exc) (s : State) : (trapEntry e s).cfg = s.cfg := rfl
@[simp] theorem trapEntry_regs (e : Exc) (s : State) : (trapEntry e s).regs = s.regs := rfl
@[simp] theorem trapEntry_pc (e : Exc) (s : State) : (trapEntry e s).pc = s.readCsr Csr.mtvec := rfl
@[simp] theorem trapEntry_mode (e : Exc) (s : State) : (trapEntry e s).mode = s.mode := rfl
@[simp] theorem trapEntry_ram (e : Exc) (s : State) : (trapEntry e s).ram = s.ram := rfl
@[simp] theorem trapEntry_rom (e : Exc) (s : State) : (trapEntry e s).rom = s.rom := rfl
@[simp] theorem trapEntry_console (e : Exc) (s : State) : (trapEntry e s).console = s.console := rfl
@[simp] theorem trapEntry_report (e : Exc) (s : State) : (trapEntry e s).report = some (.trapped e) := rfl
@[simp] theorem trapEntry_readX (e : Exc) (s : State) (r : RegIdx) : (trapEntry e s).readX r = s.readX r := rfl

/-! ## Registers and CSRs: reading after writing -/

/-- `x0` reads 0 (10_state.md R41). -/
@[simp] theorem State.readX_zero (s : State) : s.readX 0#5 = 0#64 := rfl

/-- A write to `x0` is discarded (10_state.md R41). -/
@[simp] theorem State.writeX_zero (s : State) (v : Word) : s.writeX 0#5 v = s := rfl

/-- Reading a register after a register write: the value at the register written, unless that is `x0`. -/
theorem State.readX_writeX (s : State) (r : RegIdx) (v : Word) (q : RegIdx) :
    (s.writeX r v).readX q = if q = r ∧ q ≠ 0#5 then v else s.readX q := by
  have hr := r.isLt
  have hq := q.isLt
  have h0 : ∀ x : RegIdx, x = 0#5 ↔ x.toNat = 0 := fun x => by rw [← BitVec.toNat_inj]; rfl
  by_cases hr0 : r.toNat = 0
  · have : r = 0#5 := (h0 r).mpr hr0
    subst this
    by_cases hq0 : q = 0#5 <;> simp [hq0]
  · by_cases hq0 : q.toNat = 0
    · have : q = 0#5 := (h0 q).mpr hq0
      subst this; simp
    · have hq0' : q ≠ 0#5 := fun h => hq0 ((h0 q).mp h)
      by_cases hqr : q = r
      · subst hqr
        simp [State.readX, State.writeX, hq0, hq0']
      · have : r.toNat ≠ q.toNat := fun h => hqr (BitVec.eq_of_toNat_eq h.symm)
        simp only [State.readX, State.writeX, hr0, hq0, hqr, dif_neg, not_false_eq_true, false_and, if_false]
        exact Vector.getElem_set_ne _ _ (by omega)

@[simp] theorem State.readX_writeX_self (s : State) {r : RegIdx} (v : Word) (h : r ≠ 0#5) : (s.writeX r v).readX r = v := by
  simp [State.readX_writeX, h]

@[simp] theorem State.readCsr_writeX (s : State) (r : RegIdx) (v : Word) (c : CsrIdx) :
    (s.writeX r v).readCsr c = s.readCsr c := by
  simp [State.readCsr]

@[simp] theorem State.readX_writeCsr (s : State) (c : CsrIdx) (v : Word) (r : RegIdx) :
    (s.writeCsr c v).readX r = s.readX r := rfl

/-- Reading a CSR after a CSR write: the 64 bits last written (10_state.md R50). -/
theorem State.readCsr_writeCsr (s : State) (c : CsrIdx) (v : Word) (c' : CsrIdx) :
    (s.writeCsr c v).readCsr c' = if c' = c then v else s.readCsr c' := by
  simp only [State.readCsr, State.writeCsr, Sparse.get_set, BitVec.toNat_inj]

/-- Every CSR after taking an exception: `mcause`, `mtval`, `mepc` written, every other as before (60_exceptions.md R430). -/
theorem trapEntry_readCsr (e : Exc) (s : State) (c : CsrIdx) :
    (trapEntry e s).readCsr c =
      if c = Csr.mepc then s.pc else if c = Csr.mtval then 0#64 else if c = Csr.mcause then e.code else s.readCsr c := by
  have : (trapEntry e s).readCsr c
      = (((s.writeCsr Csr.mcause e.code).writeCsr Csr.mtval 0#64).writeCsr Csr.mepc s.pc).readCsr c := rfl
  rw [this]
  simp only [State.readCsr_writeCsr]

/-- Writing a CSR keeps the canonical form of the CSR file. -/
theorem State.writeCsr_wf {s : State} (h : s.csrs.wf = true) (c : CsrIdx) (v : Word) : (s.writeCsr c v).csrs.wf = true :=
  Sparse.wf_set v h c.isLt

/-- Taking an exception keeps the canonical form of the CSR file. -/
theorem trapEntry_csrs_wf {s : State} (h : s.csrs.wf = true) (e : Exc) : (trapEntry e s).csrs.wf = true :=
  State.writeCsr_wf (State.writeCsr_wf (State.writeCsr_wf h _ _) _ _) _ _

end Sys2Proof.Machine
end

