-- ==== Sys2Proof/Laws/Memory.lean ====
section
/-! SUPPORT. Laws/Memory.lean: the laws of storage bytes: reads after writes of one byte and of `n` bytes, and that every
write keeps the canonical form. -/

namespace Sys2Proof.Machine

theorem Memory.readByte_writeByte (m : Memory) (off : Nat) (b : Byte) (off' : Nat) :
    (m.writeByte off b).readByte off' = if off' = off then b else m.readByte off' :=
  Sparse.get_set m off b off'

theorem Memory.wf_writeByte {size : Nat} {m : Memory} (h : Memory.wf size m = true) {off : Nat} (hoff : off < size) (b : Byte) :
    Memory.wf size (m.writeByte off b) = true :=
  Sparse.wf_set b h hoff

/-- A write of `n` bytes changes the bytes `off` to `off + n - 1` and no other (20_memory.md R101). -/
theorem Memory.readByte_writeLE (n : Nat) : ∀ (m : Memory) (off v off' : Nat),
    (m.writeLE off n v).readByte off' =
      if off ≤ off' ∧ off' < off + n then BitVec.ofNat 8 (v / 256 ^ (off' - off)) else m.readByte off' := by
  induction n with
  | zero => intro m off v off'; rw [if_neg (by omega)]; rfl
  | succ n ih =>
    intro m off v off'
    rw [Memory.writeLE, ih, Memory.readByte_writeByte]
    by_cases h : off' = off
    · subst h; simp
    · by_cases h1 : off + 1 ≤ off' ∧ off' < off + 1 + n
      · have h2 : off ≤ off' ∧ off' < off + (n + 1) := by omega
        rw [if_pos h1, if_pos h2, Nat.div_div_eq_div_mul, ← Nat.pow_succ']
        congr 3; omega
      · have h2 : ¬(off ≤ off' ∧ off' < off + (n + 1)) := by omega
        rw [if_neg h1, if_neg h2, if_neg h]

theorem Memory.wf_writeLE {size : Nat} (n : Nat) : ∀ {m : Memory} (_ : Memory.wf size m = true) {off : Nat} (v : Nat)
    (_ : off + n ≤ size), Memory.wf size (m.writeLE off n v) = true := by
  induction n with
  | zero => intro m h off v _; exact h
  | succ n ih =>
    intro m h off v hs
    exact ih (Memory.wf_writeByte h (by omega) _) _ (by omega)

theorem Memory.wf_writeBytes {size : Nat} (bs : List Byte) : ∀ {m : Memory} (_ : Memory.wf size m = true) {off : Nat}
    (_ : off + bs.length ≤ size), Memory.wf size (m.writeBytes off bs) = true := by
  induction bs with
  | nil => intro m h off _; exact h
  | cons b bs ih =>
    intro m h off hs
    simp only [List.length_cons] at hs
    exact ih (Memory.wf_writeByte h (by omega) _) (by omega)

/-- A write of a list of bytes changes the bytes it covers and no other. -/
theorem Memory.readByte_writeBytes (bs : List Byte) : ∀ (m : Memory) (off k : Nat),
    (m.writeBytes off bs).readByte k =
      if off ≤ k ∧ k < off + bs.length then bs.getD (k - off) 0#8 else m.readByte k := by
  induction bs with
  | nil => intro m off k; rw [if_neg (by intro h; simp at h; omega)]; rfl
  | cons b bs ih =>
    intro m off k
    rw [Memory.writeBytes, ih, Memory.readByte_writeByte]
    by_cases h : k = off
    · subst h; simp
    · by_cases h1 : off + 1 ≤ k ∧ k < off + 1 + bs.length
      · rw [if_pos h1, if_pos (by simp; omega), show k - off = (k - (off + 1)) + 1 by omega]; rfl
      · rw [if_neg h1, if_neg h, if_neg (by intro h; rw [List.length_cons] at h; omega)]

/-- The value of `n` bytes depends on those bytes only. -/
theorem Memory.readLE_congr (n : Nat) : ∀ {m m' : Memory} {off : Nat}
    (_ : ∀ k, k < n → m.readByte (off + k) = m'.readByte (off + k)), m.readLE off n = m'.readLE off n := by
  induction n with
  | zero => intros; rfl
  | succ n ih =>
    intro m m' off h
    have h0 := h 0 (by omega)
    rw [Nat.add_zero] at h0
    rw [Memory.readLE, Memory.readLE, h0, ih fun k hk => ?_]
    have := h (k + 1) (by omega)
    rwa [show off + (k + 1) = off + 1 + k by omega] at this

theorem Memory.readLE_lt (n : Nat) : ∀ (m : Memory) (off : Nat), m.readLE off n < 256 ^ n := by
  induction n with
  | zero => intros; exact Nat.one_pos
  | succ n ih =>
    intro m off
    have h1 := ih m (off + 1)
    have h2 := (m.readByte off).isLt
    have : m.readLE off (n + 1) = (m.readByte off).toNat + 256 * m.readLE (off + 1) n := rfl
    rw [this, Nat.pow_succ']
    omega

/-- Byte `k` of the value of `n` bytes is the byte at `off + k` (20_memory.md R99, R100). -/
theorem Memory.readLE_byte (n : Nat) : ∀ (m : Memory) (off k : Nat), k < n →
    BitVec.ofNat 8 (m.readLE off n / 256 ^ k) = m.readByte (off + k) := by
  induction n with
  | zero => intro m off k h; omega
  | succ n ih =>
    intro m off k hk
    have hb := (m.readByte off).isLt
    have hr : m.readLE off (n + 1) = (m.readByte off).toNat + 256 * m.readLE (off + 1) n := rfl
    cases k with
    | zero =>
      apply BitVec.eq_of_toNat_eq
      simp only [hr, BitVec.toNat_ofNat, Nat.pow_zero, Nat.div_one, Nat.add_zero]
      omega
    | succ k =>
      have h1 : (m.readLE off (n + 1)) / 256 ^ (k + 1) = m.readLE (off + 1) n / 256 ^ k := by
        rw [Nat.pow_succ', ← Nat.div_div_eq_div_mul, hr]
        congr 1
        omega
      rw [h1, ih m (off + 1) k (by omega)]
      congr 1; omega

/-- The round trip: the `n` bytes just written read back as the low `n` bytes of the value (20_memory.md R122). -/
theorem Memory.readLE_writeLE_same (n : Nat) : ∀ (m : Memory) (off v : Nat),
    (m.writeLE off n v).readLE off n = v % 256 ^ n := by
  induction n with
  | zero => intro m off v; simp [Memory.readLE, Nat.mod_one]
  | succ n ih =>
    intro m off v
    have h0 : (m.writeLE off (n + 1) v).readByte off = BitVec.ofNat 8 v := by
      rw [Memory.readByte_writeLE, if_pos (by omega)]; simp
    rw [Memory.readLE, h0]
    have h1 : (m.writeLE off (n + 1) v).readLE (off + 1) n = v / 256 % 256 ^ n := by
      rw [Memory.writeLE, ih]
    rw [h1, BitVec.toNat_ofNat, show 256 ^ (n + 1) = 256 * 256 ^ n from Nat.pow_succ', Nat.mod_mul]

end Sys2Proof.Machine
end

