-- ==== Sys2Proof/Laws/Bus.lean ====
section
/-! SUPPORT. Laws/Bus.lean: what the dispatcher does, said once: the outcomes of a read and of a write, the effect of a write on
the fields of the state and on every byte a read can see, and the consequences of a valid configuration. -/

namespace Sys2Proof.Machine

/-! ## Regions -/

theorem regionHas_iff {r : Region} {a : Word} :
    regionHas r a = true ↔ r.start.toNat ≤ a.toNat ∧ a.toNat < r.start.toNat + r.size := by
  rw [regionHas, Bool.and_eq_true, decide_eq_true_eq, decide_eq_true_eq, regionEnd]

theorem regionOf_some {cfg : Config} {a : Word} {r : Region} (h : regionOf cfg a = some r) :
    r ∈ regionTable cfg ∧ regionHas r a = true :=
  ⟨List.mem_of_find?_eq_some h, by simpa using List.find?_some h⟩

theorem regionOf_none {cfg : Config} {a : Word} :
    regionOf cfg a = none ↔ ∀ r ∈ regionTable cfg, regionHas r a = false := by
  simp [regionOf, List.find?_eq_none]

theorem configValid_iff {cfg : Config} :
    configValid cfg = true ↔ (∀ r ∈ regionTable cfg, regionOk r = true) ∧
      (regionTable cfg).Pairwise (fun r q => regionsApart r q = true) ∧ 0x04000000 ≤ cfg.dramSize := by
  simp [configValid, and_assoc]

theorem regionOk_iff {r : Region} :
    regionOk r = true ↔ 0 < r.size ∧ r.start.toNat + r.size ≤ 2 ^ 64 ∧ r.start.toNat % 8 = 0 ∧
      (r.start.toNat + r.size) % 8 = 0 := by
  simp only [regionOk, Bool.and_eq_true, decide_eq_true_eq]
  exact ⟨fun ⟨⟨⟨h0, hs⟩, he⟩, hb⟩ => ⟨h0, hb, hs, he⟩, fun ⟨h0, hb, hs, he⟩ => ⟨⟨⟨h0, hs⟩, he⟩, hb⟩⟩

theorem regionsApart_comm {r q : Region} : regionsApart r q = regionsApart q r := by
  simp [regionsApart, Bool.or_comm]

theorem regionsApart_not_both {r q : Region} {a : Word} (h : regionsApart r q = true) (hr : regionHas r a = true) :
    regionHas q a = false := by
  rw [regionHas_iff] at hr
  by_contra hq
  rw [Bool.not_eq_false, regionHas_iff] at hq
  simp only [regionsApart, Bool.or_eq_true, decide_eq_true_eq] at h
  unfold regionEnd at h
  omega

/-- In a valid configuration at most one region contains an address (20_memory.md R95). -/
theorem region_unique {cfg : Config} (hv : configValid cfg = true) {r q : Region} (hr : r ∈ regionTable cfg)
    (hq : q ∈ regionTable cfg) {a : Word} (ha : regionHas r a = true) (hb : regionHas q a = true) : r = q := by
  by_contra hne
  have hp := (configValid_iff.mp hv).2.1
  have : Std.Symm fun r q => regionsApart r q = true := ⟨fun x y h => by rwa [regionsApart_comm]⟩
  have : regionsApart r q = true := hp.forall hr hq hne
  rw [regionsApart_not_both this ha] at hb
  exact Bool.false_ne_true hb

/-- In a valid configuration a region that contains an address is the one the lookup finds. -/
theorem regionOf_eq {cfg : Config} (hv : configValid cfg = true) {r : Region} (hr : r ∈ regionTable cfg) {a : Word}
    (ha : regionHas r a = true) : regionOf cfg a = some r := by
  cases h : regionOf cfg a with
  | none => rw [regionOf_none.mp h r hr] at ha; exact absurd ha Bool.false_ne_true
  | some q =>
    obtain ⟨hq, hqa⟩ := regionOf_some h
    rw [region_unique hv hr hq ha hqa]

theorem romRegion_mem (cfg : Config) : romRegion cfg ∈ regionTable cfg := by simp [regionTable]
theorem uartRegion_mem (cfg : Config) : uartRegion cfg ∈ regionTable cfg := by simp [regionTable]
theorem clintRegion_mem (cfg : Config) : clintRegion cfg ∈ regionTable cfg := by simp [regionTable]
theorem dramRegion_mem (cfg : Config) : dramRegion cfg ∈ regionTable cfg := by simp [regionTable]

/-- An aligned access of up to 8 bytes that starts in a region of a valid configuration stays in it (20_memory.md R109). -/
theorem no_straddle {r : Region} (hok : regionOk r = true) {a : Word} (ha : regionHas r a = true) {n : Nat}
    (hn : n = 1 ∨ n = 2 ∨ n = 4 ∨ n = 8) (hal : a.toNat % n = 0) {k : Nat} (hk : k < n) :
    (a + BitVec.ofNat 64 k).toNat = a.toNat + k ∧ regionHas r (a + BitVec.ofNat 64 k) = true := by
  rw [regionHas_iff] at ha
  obtain ⟨_, h64, hs, he⟩ := regionOk_iff.mp hok
  have hlt := a.isLt
  have hsum : (a + BitVec.ofNat 64 k).toNat = a.toNat + k := by
    rw [BitVec.toNat_add, BitVec.toNat_ofNat]
    rcases hn with rfl | rfl | rfl | rfl <;> omega
  refine ⟨hsum, regionHas_iff.mpr ?_⟩
  rw [hsum]
  rcases hn with rfl | rfl | rfl | rfl <;> omega

/-! ## Reads -/

/-- What a read of one of the four widths answers (20_memory.md R97). -/
theorem memRead_eq (s : State) (a : Word) {n : Nat} (hn : n = 1 ∨ n = 2 ∨ n = 4 ∨ n = 8) :
    memRead s a n =
      if a.toNat % n ≠ 0 then .error .loadAddressMisaligned
      else match regionOf s.cfg a with
        | none => .error .loadAccessFault
        | some r => .ok (BitVec.ofNat 64 (deviceRead s r.device (a.toNat - r.start.toNat) n)) := by
  have hw : legalWidth (8 * n) = true := by rcases hn with rfl | rfl | rfl | rfl <;> rfl
  unfold memRead busRead
  rw [if_neg (by rw [hw]; decide), Nat.mul_div_cancel_left n (by decide : 0 < 8)] <;> rfl

/-- What a write of one of the four widths answers (20_memory.md R98). -/
theorem memWrite_eq (s : State) (a : Word) (v : Word) {n : Nat} (hn : n = 1 ∨ n = 2 ∨ n = 4 ∨ n = 8) :
    memWrite s a n v =
      if a.toNat % n ≠ 0 then .error .storeAddressMisaligned
      else match regionOf s.cfg a with
        | none => .error .storeAccessFault
        | some r => deviceWrite s r.device (a.toNat - r.start.toNat) n v := by
  have hw : legalWidth (8 * n) = true := by rcases hn with rfl | rfl | rfl | rfl <;> rfl
  unfold memWrite busWrite
  rw [if_neg (by rw [hw]; decide), Nat.mul_div_cancel_left n (by decide : 0 < 8)] <;> rfl

/-- A read depends on the configuration and the two storage devices only. -/
theorem memRead_congr {s t : State} (hc : t.cfg = s.cfg) (hram : t.ram = s.ram) (hrom : t.rom = s.rom) (a : Word) (n : Nat) :
    memRead t a n = memRead s a n := by
  unfold memRead busRead deviceRead
  rw [hc, hram, hrom]

theorem byteAt_congr {s t : State} (hc : t.cfg = s.cfg) (hram : t.ram = s.ram) (hrom : t.rom = s.rom) (a : Word) :
    t.byteAt a = s.byteAt a := by
  unfold State.byteAt
  rw [memRead_congr hc hram hrom]

/-- The byte at an address, by the region that contains it. -/
theorem byteAt_eq (s : State) (a : Word) :
    s.byteAt a = match regionOf s.cfg a with
      | none => none
      | some r => match r.device with
        | .mainMemory => some (s.ram.readByte (a.toNat - r.start.toNat))
        | .bootRom => some (s.rom.readByte (a.toNat - r.start.toNat))
        | .consoleSink => some 0#8
        | .timerController => some 0#8 := by
  unfold State.byteAt
  rw [memRead_eq s a (Or.inl rfl), if_neg (by simp [Nat.mod_one])]
  cases regionOf s.cfg a with
  | none => rfl
  | some r =>
    have hb : ∀ (m : Memory) (off : Nat), (BitVec.ofNat 64 (m.readLE off 1)).setWidth 8 = m.readByte off := fun m off => by
      have := (m.readByte off).isLt
      apply BitVec.eq_of_toNat_eq
      simp [Memory.readLE]
    cases hd : r.device <;> simp [hd, deviceRead, hb]

/-! ## Writes -/

/-- What a device write that succeeds does to the state: MainMemory's bytes, or one console byte, or nothing. -/
theorem deviceWrite_ok {s t : State} {d : Device} {off n : Nat} {v : Word} (h : deviceWrite s d off n v = .ok t) :
    (d = .mainMemory ∧ t = { s with ram := s.ram.writeLE off n v.toNat }) ∨
    (d = .consoleSink ∧ off = 0 ∧ t = { s with console := s.console ++ [v.setWidth 8] }) ∨
    (d = .consoleSink ∧ off ≠ 0 ∧ t = s) ∨ (d = .timerController ∧ t = s) := by
  cases d with
  | mainMemory => left; exact ⟨rfl, (Except.ok.inj h).symm⟩
  | bootRom => cases h
  | timerController => right; right; right; exact ⟨rfl, (Except.ok.inj h).symm⟩
  | consoleSink =>
    right
    simp only [deviceWrite, Except.ok.injEq] at h
    by_cases h0 : off = 0
    · left; rw [if_pos h0] at h; exact ⟨rfl, h0, h.symm⟩
    · right; left; rw [if_neg h0] at h; exact ⟨rfl, h0, h.symm⟩

/-- What a write that succeeds does (20_memory.md R98), said once. -/
theorem memWrite_ok {s t : State} {a v : Word} {n : Nat} (hn : n = 1 ∨ n = 2 ∨ n = 4 ∨ n = 8) (h : memWrite s a n v = .ok t) :
    a.toNat % n = 0 ∧ ∃ r, regionOf s.cfg a = some r ∧
      ((r.device = .mainMemory ∧ t = { s with ram := s.ram.writeLE (a.toNat - r.start.toNat) n v.toNat }) ∨
       (r.device = .consoleSink ∧ a.toNat - r.start.toNat = 0 ∧ t = { s with console := s.console ++ [v.setWidth 8] }) ∨
       (r.device = .consoleSink ∧ a.toNat - r.start.toNat ≠ 0 ∧ t = s) ∨ (r.device = .timerController ∧ t = s)) := by
  rw [memWrite_eq s a v hn] at h
  split at h
  · cases h
  · next hal =>
    refine ⟨by simpa using hal, ?_⟩
    cases hr : regionOf s.cfg a with
    | none => rw [hr] at h; cases h
    | some r => rw [hr] at h; exact ⟨r, rfl, deviceWrite_ok h⟩

/-- A write touches MainMemory and the console only. -/
theorem memWrite_fields {s t : State} {a v : Word} {n : Nat} (hn : n = 1 ∨ n = 2 ∨ n = 4 ∨ n = 8)
    (h : memWrite s a n v = .ok t) :
    t.cfg = s.cfg ∧ t.regs = s.regs ∧ t.csrs = s.csrs ∧ t.pc = s.pc ∧ t.mode = s.mode ∧ t.rom = s.rom ∧
      t.report = s.report := by
  obtain ⟨_, r, _, h⟩ := memWrite_ok hn h
  rcases h with ⟨_, rfl⟩ | ⟨_, _, rfl⟩ | ⟨_, _, rfl⟩ | ⟨_, rfl⟩ <;> exact ⟨rfl, rfl, rfl, rfl, rfl, rfl, rfl⟩

theorem dramRegion_of_mainMemory {cfg : Config} {r : Region} (hr : r ∈ regionTable cfg) (hd : r.device = .mainMemory) :
    r = dramRegion cfg := by
  simp only [regionTable, List.mem_cons, List.not_mem_nil, or_false] at hr
  rcases hr with rfl | rfl | rfl | rfl <;> first | rfl | cases hd

/-- Every byte a read can see after a write into MainMemory: the bytes stored, and every other byte as before. -/
theorem byteAt_writeLE {s : State} (hv : configValid s.cfg = true) {a : Word} (ha : regionHas (dramRegion s.cfg) a = true)
    {n : Nat} (hn : n = 1 ∨ n = 2 ∨ n = 4 ∨ n = 8) (hal : a.toNat % n = 0) (v : Nat) (b : Word) :
    ({ s with ram := s.ram.writeLE (a.toNat - s.cfg.dramStart.toNat) n v } : State).byteAt b =
      if a.toNat ≤ b.toNat ∧ b.toNat < a.toNat + n then some (BitVec.ofNat 8 (v / 256 ^ (b.toNat - a.toNat)))
      else s.byteAt b := by
  have hmem := dramRegion_mem s.cfg
  have ha' := regionHas_iff.mp ha
  have hd : (dramRegion s.cfg).start = s.cfg.dramStart := rfl
  rw [hd] at ha'
  rw [byteAt_eq, byteAt_eq]
  have hcfg : ({ s with ram := s.ram.writeLE (a.toNat - s.cfg.dramStart.toNat) n v } : State).cfg = s.cfg := rfl
  rw [hcfg]
  by_cases hb : a.toNat ≤ b.toNat ∧ b.toNat < a.toNat + n
  · obtain ⟨hk, hreg⟩ := no_straddle ((configValid_iff.mp hv).1 _ hmem) ha hn hal (k := b.toNat - a.toNat) (by omega)
    have hbb : a + BitVec.ofNat 64 (b.toNat - a.toNat) = b := by
      apply BitVec.eq_of_toNat_eq; rw [hk]; omega
    rw [hbb] at hreg
    rw [if_pos hb, regionOf_eq hv hmem hreg]
    have hb' := regionHas_iff.mp hreg
    rw [hd] at hb'
    simp only [dramRegion]
    rw [Memory.readByte_writeLE, if_pos (by omega), show b.toNat - s.cfg.dramStart.toNat - (a.toNat - s.cfg.dramStart.toNat) =
      b.toNat - a.toNat by omega]
  · rw [if_neg hb]
    cases hr : regionOf s.cfg b with
    | none => rfl
    | some r =>
      obtain ⟨hr1, hr2⟩ := regionOf_some hr
      cases hdev : r.device with
      | bootRom => simp [hdev]
      | consoleSink => simp [hdev]
      | timerController => simp [hdev]
      | mainMemory =>
        rw [dramRegion_of_mainMemory hr1 hdev] at hr2 ⊢
        have hb' := regionHas_iff.mp hr2
        simp only [dramRegion] at hb' ⊢
        rw [Memory.readByte_writeLE, if_neg (by omega)]

/-- The value a read of `n` bytes gives, byte by byte: byte `k` is the byte at `a + k` (20_memory.md R99, R100). -/
theorem memRead_bytes {s : State} (hv : configValid s.cfg = true) {a : Word} {n : Nat} (hn : n = 1 ∨ n = 2 ∨ n = 4 ∨ n = 8)
    {v : Word} (h : memRead s a n = .ok v) :
    v.toNat < 256 ^ n ∧ ∀ k, k < n → s.byteAt (a + BitVec.ofNat 64 k) = some (BitVec.ofNat 8 (v.toNat / 256 ^ k)) := by
  rw [memRead_eq s a hn] at h
  split at h
  · cases h
  next hal =>
  have hal : a.toNat % n = 0 := by simpa using hal
  cases hr : regionOf s.cfg a with
  | none => rw [hr] at h; cases h
  | some r =>
    rw [hr] at h
    obtain ⟨hr1, hr2⟩ := regionOf_some hr
    have hval := Except.ok.inj h
    have hok := (configValid_iff.mp hv).1 r hr1
    have hlt : deviceRead s r.device (a.toNat - r.start.toNat) n < 256 ^ n := by
      cases r.device <;> simp only [deviceRead]
      · exact Memory.readLE_lt _ _ _
      · exact Nat.pow_pos (by omega)
      · exact Nat.pow_pos (by omega)
      · exact Memory.readLE_lt _ _ _
    have h64 : (256 : Nat) ^ n ≤ 2 ^ 64 := by rcases hn with rfl | rfl | rfl | rfl <;> norm_num
    have hnat : v.toNat = deviceRead s r.device (a.toNat - r.start.toNat) n := by
      rw [← hval, BitVec.toNat_ofNat, Nat.mod_eq_of_lt (by omega)]
    refine ⟨by rw [hnat]; exact hlt, fun k hk => ?_⟩
    obtain ⟨hsum, hreg⟩ := no_straddle hok hr2 hn hal hk
    rw [byteAt_eq, regionOf_eq hv hr1 hreg, hsum, hnat]
    have hra := regionHas_iff.mp hr2
    have hoff : a.toNat + k - r.start.toNat = a.toNat - r.start.toNat + k := by omega
    simp only [hoff]
    cases hdev : r.device <;> simp only [deviceRead]
    · rw [Memory.readLE_byte n _ _ k hk]
    · simp
    · simp
    · rw [Memory.readLE_byte n _ _ k hk]

end Sys2Proof.Machine
end

