-- ==== Sys2Proof/Laws/Exec.lean ====
section
/-! SUPPORT. Laws/Exec.lean: what each shared operation does, said once in the terms of Safety.lean, and the one case analysis of
everything an instruction and a step can do. -/

namespace Sys2Proof.Machine

/-! ## The shared operations -/

theorem regsWith_writeX {s t : State} {rd : RegIdx} {v : Word} (h : ∀ q, t.readX q = (s.writeX rd v).readX q) :
    RegsWith s t rd v := by
  refine ⟨by rw [h, State.readX_zero], fun q hq => ?_⟩
  rw [h, State.readX_writeX]
  by_cases hr : q = rd <;> simp [hr, hq]
  intro h0; exact absurd (hr ▸ h0) hq

theorem sameMemory_of {s t : State} (hc : t.cfg = s.cfg) (hram : t.ram = s.ram) (hrom : t.rom = s.rom) : SameMemory s t :=
  byteAt_congr hc hram hrom

/-- Writing a register and retiring. -/
theorem retiresWith_writeX (s : State) (rd : RegIdx) (v target : Word) :
    RetiresWith (.next ((s.writeX rd v).retireTo target)) s rd v target :=
  ⟨_, rfl, regsWith_writeX fun _ => rfl, rfl, fun c => by simp, sameMemory_of (by simp) (by simp) (by simp),
    ⟨by simp, by simp, by simp⟩, by simp, rfl⟩

theorem writeResult_retires (rd : RegIdx) (v : Word) (s : State) :
    RetiresWith (writeResult rd v s) s rd v (s.pc + 4#64) := by
  have h := retiresWith_writeX s rd v ((s.writeX rd v).pc + 4#64)
  rw [State.writeX_pc] at h
  rw [writeResult, retire, State.writeX_pc]
  exact h

theorem jumpAndLink_retires (rd : RegIdx) (target : Word) (s : State) :
    RetiresWith (jumpAndLink rd target s) s rd (s.pc + 4#64) target :=
  retiresWith_writeX s rd (s.pc + 4#64) target

theorem retireTo_retires (s : State) (target : Word) : RetiresWith (.next (s.retireTo target)) s 0#5 0#64 target :=
  retiresWith_writeX s 0#5 0#64 target

theorem retire_retires (s : State) : RetiresWith (retire s) s 0#5 0#64 (s.pc + 4#64) := retireTo_retires s _

theorem branchIf_retires (cond : Bool) (offset : BitVec 13) (s : State) :
    RetiresWith (branchIf cond offset s) s 0#5 0#64 (if cond then s.pc + sextOffset13 offset else s.pc + 4#64) := by
  cases cond
  · exact retire_retires s
  · exact retireTo_retires s _

theorem csrUpdate_updates (rd : RegIdx) (csr : CsrIdx) (new : Word) (s : State) :
    UpdatesCsr (csrUpdate rd csr new s) s rd csr new := by
  refine ⟨_, rfl, regsWith_writeX fun q => ?_, by simp, fun c => ?_, sameMemory_of (by simp) (by simp) (by simp),
    ⟨by simp, by simp, by simp⟩, by simp, rfl⟩
  · rw [State.retireTo_readX, State.readX_writeX, State.readX_writeX]; rfl
  · simp [State.readCsr_writeCsr]

theorem raise_traps (e : Exc) (s : State) : Traps (raise e s) s e := by
  refine ⟨_, rfl, rfl, fun c => ?_, fun _ => rfl, sameMemory_of rfl rfl rfl, ⟨rfl, rfl, rfl⟩, rfl, rfl⟩
  rw [trapEntry_readCsr]
  by_cases h1 : c = Csr.mcause
  · subst h1; rfl
  · by_cases h2 : c = Csr.mtval
    · subst h2; rfl
    · simp [h1, h2]

/-! ## Reading and writing memory -/

theorem mapped_iff {cfg : Config} {a : Word} : Mapped cfg a ↔ ∃ r, regionOf cfg a = some r := by
  constructor
  · rintro ⟨r, hr, ha⟩
    cases h : regionOf cfg a with
    | some q => exact ⟨q, rfl⟩
    | none => rw [regionOf_none.mp h r hr] at ha; exact absurd ha Bool.false_ne_true
  · rintro ⟨r, h⟩; exact ⟨r, regionOf_some h⟩

theorem not_mapped_iff {cfg : Config} {a : Word} : ¬Mapped cfg a ↔ regionOf cfg a = none := by
  rw [mapped_iff]; cases regionOf cfg a <;> simp

/-- The number of `n` bytes whose byte `k` is byte `k` of `v`. -/
theorem leAt_eq {s : State} (n : Nat) : ∀ {a : Word} {v : Nat}, v < 256 ^ n →
    (∀ k, k < n → s.byteAt (a + BitVec.ofNat 64 k) = some (BitVec.ofNat 8 (v / 256 ^ k))) → s.leAt a n = v := by
  induction n with
  | zero => intro a v hv _; simp at hv; simp [State.leAt, hv]
  | succ n ih =>
    intro a v hv h
    have h0 := h 0 (by omega)
    simp only [BitVec.add_zero, Nat.pow_zero, Nat.div_one] at h0
    have hn : s.leAt (a + 1#64) n = v / 256 := by
      refine ih (by rw [Nat.div_lt_iff_lt_mul (by decide), ← Nat.pow_succ]; exact hv) fun k hk => ?_
      have := h (k + 1) (by omega)
      rw [Nat.pow_succ', ← Nat.div_div_eq_div_mul] at this
      rw [← this, BitVec.add_assoc]
      congr 2
      rw [BitVec.ofNat_add, BitVec.add_comm]
    simp only [State.leAt, h0, Option.getD_some, hn, BitVec.toNat_ofNat]
    omega

/-- The outcomes of a read in a valid configuration (20_memory.md R97). -/
theorem memRead_cases {s : State} (hv : configValid s.cfg = true) (a : Word) {n : Nat}
    (hn : n = 1 ∨ n = 2 ∨ n = 4 ∨ n = 8) :
    (a.toNat % n ≠ 0 ∧ memRead s a n = .error .loadAddressMisaligned) ∨
    (a.toNat % n = 0 ∧ ¬Mapped s.cfg a ∧ memRead s a n = .error .loadAccessFault) ∨
    (a.toNat % n = 0 ∧ Mapped s.cfg a ∧ memRead s a n = .ok (BitVec.ofNat 64 (s.leAt a n)) ∧ s.leAt a n < 256 ^ n) := by
  have h := memRead_eq s a hn
  by_cases hal : a.toNat % n = 0
  · right
    rw [if_neg (by simpa using hal)] at h
    cases hr : regionOf s.cfg a with
    | none => left; rw [hr] at h; exact ⟨hal, not_mapped_iff.mpr hr, h⟩
    | some r =>
      right
      rw [hr] at h
      obtain ⟨hlt, hb⟩ := memRead_bytes hv hn h
      have hl := leAt_eq n hlt hb
      refine ⟨hal, mapped_iff.mpr ⟨r, hr⟩, ?_, by rw [hl]; exact hlt⟩
      rw [hl, BitVec.ofNat_toNat, BitVec.setWidth_eq]
      exact h
  · left; rw [if_pos hal] at h; exact ⟨hal, h⟩

/-- Storing into MainMemory and writing a register, with the instruction retired. -/
theorem storesWith_of {s : State} (hv : configValid s.cfg = true) {a : Word} (ha : InRam s.cfg a) {n : Nat}
    (hn : n = 1 ∨ n = 2 ∨ n = 4 ∨ n = 8) (hal : a.toNat % n = 0) (w : Nat) (rd : RegIdx) (v : Word) :
    StoresWith (retire (({ s with ram := s.ram.writeLE (a.toNat - s.cfg.dramStart.toNat) n w } : State).writeX rd v))
      s rd v a n w := by
  refine ⟨_, rfl, regsWith_writeX fun q => ?_, by simp, fun c => ?_, fun b => ?_, ⟨by simp, by simp, by simp⟩,
    by simp, rfl⟩
  · rw [State.retireTo_readX, State.readX_writeX, State.readX_writeX]; rfl
  · simp only [State.retireTo_readCsr, State.readCsr_writeX]; rfl
  · rw [← byteAt_writeLE hv ha hn hal w b]
    exact byteAt_congr (by simp) (by simp) (by simp) b

/-- Where a write goes in a valid configuration (20_memory.md R98). -/
theorem memWrite_cases {s : State} (hv : configValid s.cfg = true) (a v : Word) {n : Nat}
    (hn : n = 1 ∨ n = 2 ∨ n = 4 ∨ n = 8) :
    (a.toNat % n ≠ 0 → memWrite s a n v = .error .storeAddressMisaligned) ∧
    (a.toNat % n = 0 → ¬Mapped s.cfg a → memWrite s a n v = .error .storeAccessFault) ∧
    (a.toNat % n = 0 → InRom s.cfg a → memWrite s a n v = .error .storeAccessFault) ∧
    (a.toNat % n = 0 → InRam s.cfg a →
      memWrite s a n v = .ok { s with ram := s.ram.writeLE (a.toNat - s.cfg.dramStart.toNat) n v.toNat }) ∧
    (a.toNat % n = 0 → InTimer s.cfg a → memWrite s a n v = .ok s) ∧
    (a = s.cfg.uartStart → memWrite s a n v = .ok { s with console := s.console ++ [v.setWidth 8] }) ∧
    (a.toNat % n = 0 → InConsole s.cfg a → a ≠ s.cfg.uartStart → memWrite s a n v = .ok s) := by
  have h := memWrite_eq s a v hn
  refine ⟨fun hal => ?_, fun hal hm => ?_, fun hal hm => ?_, fun hal hm => ?_, fun hal hm => ?_, fun hm => ?_,
    fun hal hm hne => ?_⟩
  · rw [h, if_pos hal]
  · rw [h, if_neg (by simpa using hal), not_mapped_iff.mp hm]
  · rw [h, if_neg (by simpa using hal), regionOf_eq hv (romRegion_mem _) hm]; rfl
  · rw [h, if_neg (by simpa using hal), regionOf_eq hv (dramRegion_mem _) hm]; rfl
  · rw [h, if_neg (by simpa using hal), regionOf_eq hv (clintRegion_mem _) hm]; rfl
  · have hok := regionOk_iff.mp ((configValid_iff.mp hv).1 _ (uartRegion_mem s.cfg))
    have hu : regionHas (uartRegion s.cfg) a = true := by
      rw [regionHas_iff, hm]; exact ⟨Nat.le_refl _, Nat.lt_add_of_pos_right hok.1⟩
    have hal : a.toNat % n = 0 := by
      have h8 : a.toNat % 8 = 0 := hm ▸ hok.2.2.1
      rcases hn with rfl | rfl | rfl | rfl <;> omega
    rw [h, if_neg (by simpa using hal), regionOf_eq hv (uartRegion_mem _) hu]
    have : a.toNat - (uartRegion s.cfg).start.toNat = 0 := by rw [hm]; exact Nat.sub_self _
    simp [uartRegion, deviceWrite, ← hm]
  · rw [h, if_neg (by simpa using hal), regionOf_eq hv (uartRegion_mem _) hm]
    have hge := (regionHas_iff.mp hm).1
    have : a.toNat - s.cfg.uartStart.toNat ≠ 0 := by
      intro h0
      apply hne
      apply BitVec.eq_of_toNat_eq
      have : s.cfg.uartStart.toNat ≤ a.toNat := hge
      omega
    have hd : ∀ off, off ≠ 0 → deviceWrite s .consoleSink off n v = .ok s := fun off h => by simp [deviceWrite, h]
    exact hd _ this

/-! ## Everything an instruction can do -/

/-- Every effect an instruction or a step can have: an exception is taken; a register is written; a CSR and a register are
written; the mode is set by MRET; a write reaches a device and a register is written. -/
def Effect (i : Option Instr) (s t : State) : Prop :=
  (∃ e, e ≠ Exc.hardwareError ∧ t = trapEntry e s) ∨
  (∃ rd v target, t = (s.writeX rd v).retireTo target) ∨
  (∃ rd c v, t = ((s.writeCsr c v).writeX rd (s.readCsr c)).retireTo (s.pc + 4#64)) ∨
  (∃ m, i = some .mret ∧ modeOfMpp s.mpp = some m ∧ t = ({ s with mode := m } : State).retireTo (s.readCsr Csr.mepc)) ∨
  (∃ a n v u rd w, (n = 1 ∨ n = 2 ∨ n = 4 ∨ n = 8) ∧ memWrite s a n v = .ok u ∧ t = (u.writeX rd w).retireTo (s.pc + 4#64))

/-- The answer is a next state reached by one of those effects. -/
def HasEffect (i : Option Instr) (s : State) (r : Result) : Prop := ∃ t, r = .next t ∧ Effect i s t

variable {i : Option Instr} {s : State}

theorem raise_effect {e : Exc} (h : e ≠ .hardwareError) : HasEffect i s (raise e s) := ⟨_, rfl, .inl ⟨e, h, rfl⟩⟩

theorem writeX_effect (rd : RegIdx) (v target : Word) : HasEffect i s (.next ((s.writeX rd v).retireTo target)) :=
  ⟨_, rfl, .inr (.inl ⟨rd, v, target, rfl⟩)⟩

theorem writeResult_effect (rd : RegIdx) (v : Word) : HasEffect i s (writeResult rd v s) := writeX_effect rd v _

theorem branchIf_effect (cond : Bool) (offset : BitVec 13) : HasEffect i s (branchIf cond offset s) := by
  cases cond
  · exact writeX_effect 0#5 0#64 _
  · exact writeX_effect 0#5 0#64 _

theorem csrUpdate_effect (rd : RegIdx) (c : CsrIdx) (v : Word) : HasEffect i s (csrUpdate rd c v s) := by
  refine ⟨_, rfl, .inr (.inr (.inl ⟨rd, c, v, ?_⟩))⟩
  rw [State.writeX_pc, State.writeCsr_pc]

theorem memRead_error {a : Word} {n : Nat} (hn : n = 1 ∨ n = 2 ∨ n = 4 ∨ n = 8) {e : Exc} (h : memRead s a n = .error e) :
    e = .loadAddressMisaligned ∨ e = .loadAccessFault := by
  rw [memRead_eq s a hn] at h
  split at h
  · exact .inl (Except.error.inj h).symm
  · split at h
    · exact .inr (Except.error.inj h).symm
    · cases h

theorem memWrite_error {a v : Word} {n : Nat} (hn : n = 1 ∨ n = 2 ∨ n = 4 ∨ n = 8) {e : Exc}
    (h : memWrite s a n v = .error e) : e = .storeAddressMisaligned ∨ e = .storeAccessFault := by
  rw [memWrite_eq s a v hn] at h
  split at h
  · exact .inl (Except.error.inj h).symm
  · split at h
    · exact .inr (Except.error.inj h).symm
    · next r _ =>
      cases hd : r.device <;> rw [hd] at h <;> first | exact .inr (Except.error.inj h).symm | cases h

theorem memRead_error_ne {a : Word} {n : Nat} (hn : n = 1 ∨ n = 2 ∨ n = 4 ∨ n = 8) {e : Exc}
    (h : memRead s a n = .error e) : e ≠ .hardwareError := by
  rcases memRead_error hn h with rfl | rfl <;> decide

theorem memWrite_error_ne {a v : Word} {n : Nat} (hn : n = 1 ∨ n = 2 ∨ n = 4 ∨ n = 8) {e : Exc}
    (h : memWrite s a n v = .error e) : e ≠ .hardwareError := by
  rcases memWrite_error hn h with rfl | rfl <;> decide

theorem loadInto_effect (rd rs1 : RegIdx) (imm : BitVec 12) {n : Nat} (hn : n = 1 ∨ n = 2 ∨ n = 4 ∨ n = 8)
    (ext : Word → Word) : HasEffect i s (loadInto rd rs1 imm n ext s) := by
  unfold loadInto
  split
  · exact writeX_effect rd _ _
  · next h => exact raise_effect (memRead_error_ne hn h)

theorem storeFrom_effect (rs1 rs2 : RegIdx) (imm : BitVec 12) {n : Nat} (hn : n = 1 ∨ n = 2 ∨ n = 4 ∨ n = 8) :
    HasEffect i s (storeFrom rs1 rs2 imm n s) := by
  unfold storeFrom
  split
  · next t h =>
    have hpc := (memWrite_fields hn h).2.2.2.1
    refine ⟨_, rfl, .inr (.inr (.inr (.inr ⟨_, n, _, t, 0#5, 0#64, hn, h, ?_⟩)))⟩
    rw [hpc]; rfl
  · next h => exact raise_effect (memWrite_error_ne hn h)

theorem amo_effect (rd rs1 : RegIdx) {n : Nat} (hn : n = 1 ∨ n = 2 ∨ n = 4 ∨ n = 8) (new ret : Word → Word) :
    HasEffect i s (amo rd rs1 n new ret s) := by
  unfold amo
  split
  · next h => exact raise_effect (memRead_error_ne hn h)
  · next old _ =>
    split
    · next h => exact raise_effect (memWrite_error_ne hn h)
    · next t h =>
      have hpc := (memWrite_fields hn h).2.2.2.1
      refine ⟨_, rfl, .inr (.inr (.inr (.inr ⟨_, n, _, t, rd, ret old, hn, h, ?_⟩)))⟩
      rw [State.writeX_pc, hpc]

theorem trapReturn_effect : HasEffect (some .mret) s (trapReturn s) := by
  unfold trapReturn
  split
  · next m h => exact ⟨_, rfl, .inr (.inr (.inr (.inl ⟨m, rfl, h, rfl⟩)))⟩
  · exact raise_effect (by decide)

/-- Everything an instruction can do, said once: it always answers a next state (60_exceptions.md R433), reached by one of the
five effects. -/
theorem exec_cases (i : Instr) (s : State) : HasEffect (some i) s (exec i s) := by
  cases i <;> first
    | exact writeResult_effect _ _
    | exact loadInto_effect _ _ _ (by decide) _
    | exact storeFrom_effect _ _ _ (by decide)
    | exact amo_effect _ _ (by decide) _ _
    | exact csrUpdate_effect _ _ _
    | exact branchIf_effect _ _
    | exact writeX_effect _ _ _
    | exact writeX_effect 0#5 0#64 _
    | exact trapReturn_effect
    | exact raise_effect (by decide)
    | exact raise_effect (by cases s.mode <;> decide)

/-- The instruction at `pc`, where the fetch and the decode give one. -/
def State.current (s : State) : Option Instr :=
  match fetch s with
  | .error _ => none
  | .ok w => decodeWord w

theorem fetch_error_ne {e : Exc} (h : fetch s = .error e) : e ≠ .hardwareError := by
  unfold fetch at h
  split at h
  · next he => rw [← Except.error.inj h]; exact memRead_error_ne (by decide) he
  · split at h
    · split at h
      · next he => rw [← Except.error.inj h]; exact memRead_error_ne (by decide) he
      · cases h
    · rw [← Except.error.inj h]; decide

/-- Everything a step can do, said once. -/
theorem step_cases (s : State) : HasEffect s.current s (step s) := by
  unfold step State.current
  cases h : fetch s with
  | error e => exact raise_effect (fetch_error_ne h)
  | ok w =>
    cases hd : decodeWord w with
    | none => simp only [hd]; exact raise_effect (by decide)
    | some i => simp only [hd]; exact exec_cases i s

/-- A step at whose `pc` an instruction stands is that instruction's meaning. -/
theorem step_of_current {i : Instr} (h : s.current = some i) : step s = exec i s := by
  unfold State.current at h
  unfold step
  cases hf : fetch s with
  | error e => rw [hf] at h; cases h
  | ok w => rw [hf] at h; simp only at h; simp only [h]

/-- A word that the decoder rejects matches no row, in the sense of the claims. -/
theorem matchesNoRow_of {w : Word32} (h : decodeWord w = none) : MatchesNoRow w := by
  refine ⟨h, fun s hs => ?_⟩
  unfold step
  rw [hs]
  simp only [h]
  exact raise_traps _ s

/-- A run of one step more begins with that step. -/
theorem reaches_succ {k : Nat} {s t u : State} (h : step s = .next u) : Reaches (k + 1) s t ↔ Reaches k u t := by
  have hs : Sys2Proof.core.step s = .next u := h
  have he : Host.Core.run Sys2Proof.core (k + 1) s = Host.Core.run Sys2Proof.core k u :=
    (Host.Core.run.eq_2 Sys2Proof.core s k).trans (by rw [hs])
  unfold Reaches
  rw [he]

end Sys2Proof.Machine
end

