-- ==== Sys2Proof/Laws/Access.lean ====
section
/-! SUPPORT. Laws/Access.lean: what a load, a store, an AMO and the fetch do in a valid configuration, by where the address lies,
in the terms of Safety.lean. -/

namespace Sys2Proof.Machine

/-! ## Loads and stores -/

/-- A load (46_load_store_fence.md R321): misaligned, unmapped, or the bytes read. -/
theorem loadInto_spec {s : State} (hv : configValid s.cfg = true) (rd rs1 : RegIdx) (imm : BitVec 12) {n : Nat}
    (hn : n = 1 ∨ n = 2 ∨ n = 4 ∨ n = 8) (ext : Word → Word) :
    ((effectiveAddr s rs1 imm).toNat % n ≠ 0 → Traps (loadInto rd rs1 imm n ext s) s .loadAddressMisaligned) ∧
    ((effectiveAddr s rs1 imm).toNat % n = 0 → ¬Mapped s.cfg (effectiveAddr s rs1 imm) →
      Traps (loadInto rd rs1 imm n ext s) s .loadAccessFault) ∧
    ((effectiveAddr s rs1 imm).toNat % n = 0 → Mapped s.cfg (effectiveAddr s rs1 imm) →
      s.leAt (effectiveAddr s rs1 imm) n < 256 ^ n ∧
      RetiresWith (loadInto rd rs1 imm n ext s) s rd (ext (BitVec.ofNat 64 (s.leAt (effectiveAddr s rs1 imm) n)))
        (s.pc + 4#64)) := by
  unfold loadInto
  rcases memRead_cases hv (effectiveAddr s rs1 imm) hn with ⟨h1, h⟩ | ⟨h1, h2, h⟩ | ⟨h1, h2, h, hlt⟩
  · exact ⟨fun _ => by rw [h]; exact raise_traps _ s, fun h0 => absurd h0 h1, fun h0 => absurd h0 h1⟩
  · exact ⟨fun h0 => absurd h1 h0, fun _ _ => by rw [h]; exact raise_traps _ s, fun _ h0 => absurd h0 h2⟩
  · exact ⟨fun h0 => absurd h1 h0, fun _ h0 => absurd h2 h0, fun _ _ => ⟨hlt, by rw [h]; exact writeResult_retires rd _ s⟩⟩

/-- A console write and a register write, with the instruction retired. -/
theorem emitsWith_of (s : State) (rd : RegIdx) (v : Word) (b : Byte) :
    EmitsWith (retire (({ s with console := s.console ++ [b] } : State).writeX rd v)) s rd v b := by
  refine ⟨_, rfl, regsWith_writeX fun q => ?_, by simp, fun c => ?_, sameMemory_of (by simp) (by simp) (by simp),
    ⟨by simp, by simp, by simp⟩, by simp, rfl⟩
  · rw [State.retireTo_readX, State.readX_writeX, State.readX_writeX]; rfl
  · simp only [State.retireTo_readCsr, State.readCsr_writeX]; rfl

/-- A store (46_load_store_fence.md R329), by where its address lies. -/
theorem storeFrom_spec {s : State} (hv : configValid s.cfg = true) (rs1 rs2 : RegIdx) (imm : BitVec 12) {n : Nat}
    (hn : n = 1 ∨ n = 2 ∨ n = 4 ∨ n = 8) :
    ((effectiveAddr s rs1 imm).toNat % n ≠ 0 → Traps (storeFrom rs1 rs2 imm n s) s .storeAddressMisaligned) ∧
    ((effectiveAddr s rs1 imm).toNat % n = 0 → ¬Mapped s.cfg (effectiveAddr s rs1 imm) →
      Traps (storeFrom rs1 rs2 imm n s) s .storeAccessFault) ∧
    ((effectiveAddr s rs1 imm).toNat % n = 0 → InRom s.cfg (effectiveAddr s rs1 imm) →
      Traps (storeFrom rs1 rs2 imm n s) s .storeAccessFault) ∧
    ((effectiveAddr s rs1 imm).toNat % n = 0 → InRam s.cfg (effectiveAddr s rs1 imm) →
      StoresWith (storeFrom rs1 rs2 imm n s) s 0#5 0#64 (effectiveAddr s rs1 imm) n (s.readX rs2).toNat) ∧
    ((effectiveAddr s rs1 imm).toNat % n = 0 → InTimer s.cfg (effectiveAddr s rs1 imm) →
      RetiresWith (storeFrom rs1 rs2 imm n s) s 0#5 0#64 (s.pc + 4#64)) ∧
    (effectiveAddr s rs1 imm = s.cfg.uartStart →
      EmitsWith (storeFrom rs1 rs2 imm n s) s 0#5 0#64 ((s.readX rs2).setWidth 8)) ∧
    ((effectiveAddr s rs1 imm).toNat % n = 0 → InConsole s.cfg (effectiveAddr s rs1 imm) →
      effectiveAddr s rs1 imm ≠ s.cfg.uartStart → RetiresWith (storeFrom rs1 rs2 imm n s) s 0#5 0#64 (s.pc + 4#64)) := by
  obtain ⟨h1, h2, h3, h4, h5, h6, h7⟩ := memWrite_cases hv (effectiveAddr s rs1 imm) (s.readX rs2) hn
  unfold storeFrom
  refine ⟨fun a => ?_, fun a b => ?_, fun a b => ?_, fun a b => ?_, fun a b => ?_, fun a => ?_, fun a b c => ?_⟩
  · rw [h1 a]; exact raise_traps _ s
  · rw [h2 a b]; exact raise_traps _ s
  · rw [h3 a b]; exact raise_traps _ s
  · rw [h4 a b]; exact storesWith_of hv b hn a _ 0#5 0#64
  · rw [h5 a b]; exact retire_retires s
  · rw [h6 a]; exact emitsWith_of s 0#5 0#64 _
  · rw [h7 a b c]; exact retire_retires s

/-! ## AMOs -/

theorem leAt_device_zero {s : State} (hv : configValid s.cfg = true) {a : Word} {r : Region} (hr : r ∈ regionTable s.cfg)
    (ha : regionHas r a = true) (hd : r.device = .consoleSink ∨ r.device = .timerController) {n : Nat}
    (hn : n = 1 ∨ n = 2 ∨ n = 4 ∨ n = 8) (hal : a.toNat % n = 0) : s.leAt a n = 0 := by
  have h := memRead_eq s a hn
  rw [if_neg (by simpa using hal), regionOf_eq hv hr ha] at h
  have h0 : deviceRead s r.device (a.toNat - r.start.toNat) n = 0 := by rcases hd with hd | hd <;> rw [hd] <;> rfl
  simp only [h0] at h
  obtain ⟨_, hb⟩ := memRead_bytes hv hn h
  exact leAt_eq n (Nat.pow_pos (by decide)) fun k hk => by simpa using hb k hk

theorem mapped_of_mem {cfg : Config} {r : Region} (hr : r ∈ regionTable cfg) {a : Word} (h : regionHas r a = true) :
    Mapped cfg a := ⟨r, hr, h⟩

/-- An AMO (48_amo.md R380, R383), by where its address lies. -/
theorem amo_spec {s : State} (hv : configValid s.cfg = true) (rd rs1 : RegIdx) {n : Nat}
    (hn : n = 1 ∨ n = 2 ∨ n = 4 ∨ n = 8) (new ret : Word → Word) :
    ((s.readX rs1).toNat % n ≠ 0 → Traps (amo rd rs1 n new ret s) s .loadAddressMisaligned) ∧
    ((s.readX rs1).toNat % n = 0 → ¬Mapped s.cfg (s.readX rs1) → Traps (amo rd rs1 n new ret s) s .loadAccessFault) ∧
    ((s.readX rs1).toNat % n = 0 → InRom s.cfg (s.readX rs1) → Traps (amo rd rs1 n new ret s) s .storeAccessFault) ∧
    ((s.readX rs1).toNat % n = 0 → InRam s.cfg (s.readX rs1) →
      s.leAt (s.readX rs1) n < 256 ^ n ∧
      StoresWith (amo rd rs1 n new ret s) s rd (ret (BitVec.ofNat 64 (s.leAt (s.readX rs1) n))) (s.readX rs1) n
        (new (BitVec.ofNat 64 (s.leAt (s.readX rs1) n))).toNat) ∧
    ((s.readX rs1).toNat % n = 0 → InTimer s.cfg (s.readX rs1) →
      RetiresWith (amo rd rs1 n new ret s) s rd (ret 0#64) (s.pc + 4#64)) ∧
    (s.readX rs1 = s.cfg.uartStart → EmitsWith (amo rd rs1 n new ret s) s rd (ret 0#64) ((new 0#64).setWidth 8)) ∧
    ((s.readX rs1).toNat % n = 0 → InConsole s.cfg (s.readX rs1) → s.readX rs1 ≠ s.cfg.uartStart →
      RetiresWith (amo rd rs1 n new ret s) s rd (ret 0#64) (s.pc + 4#64)) := by
  have hok : ∀ {a : Word}, a.toNat % n = 0 → Mapped s.cfg a → memRead s a n = .ok (BitVec.ofNat 64 (s.leAt a n)) ∧
      s.leAt a n < 256 ^ n := by
    intro a ha hm
    rcases memRead_cases hv a hn with ⟨h, _⟩ | ⟨_, h, _⟩ | ⟨_, _, h⟩
    · exact absurd ha h
    · exact absurd hm h
    · exact h
  unfold amo
  refine ⟨fun a => ?_, fun a b => ?_, fun a b => ?_, fun a b => ?_, fun a b => ?_, fun a => ?_, fun a b c => ?_⟩
  · rcases memRead_cases hv (s.readX rs1) hn with ⟨_, h⟩ | ⟨h, _⟩ | ⟨h, _⟩
    · rw [h]; exact raise_traps _ s
    · exact absurd h a
    · exact absurd h a
  · rcases memRead_cases hv (s.readX rs1) hn with ⟨h, _⟩ | ⟨_, _, h⟩ | ⟨_, h, _⟩
    · exact absurd a h
    · rw [h]; exact raise_traps _ s
    · exact absurd h b
  · have hw := (memWrite_cases hv (s.readX rs1) (new (BitVec.ofNat 64 (s.leAt (s.readX rs1) n))) hn).2.2.1 a b
    rw [(hok a (mapped_of_mem (romRegion_mem _) b)).1]
    simp only [hw]
    exact raise_traps _ s
  · have hw := (memWrite_cases hv (s.readX rs1) (new (BitVec.ofNat 64 (s.leAt (s.readX rs1) n))) hn).2.2.2.1 a b
    obtain ⟨hr, hlt⟩ := hok a (mapped_of_mem (dramRegion_mem _) b)
    refine ⟨hlt, ?_⟩
    rw [hr]
    simp only [hw]
    exact storesWith_of hv b hn a _ rd _
  · have hw := (memWrite_cases hv (s.readX rs1) (new 0#64) hn).2.2.2.2.1 a b
    have hz := leAt_device_zero hv (clintRegion_mem _) b (.inr rfl) hn a
    rw [(hok a (mapped_of_mem (clintRegion_mem _) b)).1, hz]
    simp only [hw]
    exact writeResult_retires rd _ s
  · have hu := regionOk_iff.mp ((configValid_iff.mp hv).1 _ (uartRegion_mem s.cfg))
    have b : InConsole s.cfg (s.readX rs1) := by
      rw [InConsole, regionHas_iff, a]; exact ⟨Nat.le_refl _, Nat.lt_add_of_pos_right hu.1⟩
    have hal : (s.readX rs1).toNat % n = 0 := by
      have h8 : (s.readX rs1).toNat % 8 = 0 := a ▸ hu.2.2.1
      rcases hn with rfl | rfl | rfl | rfl <;> omega
    have hw := (memWrite_cases hv (s.readX rs1) (new 0#64) hn).2.2.2.2.2.1 a
    have hz := leAt_device_zero hv (uartRegion_mem _) b (.inl rfl) hn hal
    rw [(hok hal (mapped_of_mem (uartRegion_mem _) b)).1, hz]
    simp only [hw]
    exact emitsWith_of s rd _ _
  · have hw := (memWrite_cases hv (s.readX rs1) (new 0#64) hn).2.2.2.2.2.2 a b c
    have hz := leAt_device_zero hv (uartRegion_mem _) b (.inl rfl) hn a
    rw [(hok a (mapped_of_mem (uartRegion_mem _) b)).1, hz]
    simp only [hw]
    exact writeResult_retires rd _ s

/-! ## Fetch -/

theorem leAt_lt (s : State) (n : Nat) : ∀ a : Word, s.leAt a n < 256 ^ n := by
  induction n with
  | zero => intro a; simp [State.leAt]
  | succ n ih =>
    intro a
    have := ih (a + 1#64)
    have hb := ((s.byteAt a).getD 0#8).isLt
    rw [State.leAt, Nat.pow_succ']
    omega

/-- A longer number begins with the shorter one. -/
theorem leAt_add (s : State) (n m : Nat) : ∀ a : Word,
    s.leAt a (n + m) = s.leAt a n + 256 ^ n * s.leAt (a + BitVec.ofNat 64 n) m := by
  induction n with
  | zero => intro a; simp [State.leAt]
  | succ n ih =>
    intro a
    rw [Nat.succ_add, State.leAt, ih, State.leAt, BitVec.add_assoc, ← BitVec.ofNat_add, Nat.add_comm 1 n,
      Nat.pow_succ', Nat.mul_add, Nat.mul_assoc, Nat.add_assoc]

theorem isUncompressed_iff (v : Nat) (_hv : v < 2 ^ 16) :
    isUncompressed ((BitVec.ofNat 64 v).setWidth 16) = true ↔ v % 4 = 3 := by
  rw [isUncompressed, decide_eq_true_eq, ← BitVec.toNat_inj, BitVec.extractLsb'_toNat, Nat.shiftRight_zero,
    BitVec.toNat_setWidth, BitVec.toNat_ofNat]
  change v % 2 ^ 64 % 2 ^ 16 % 2 ^ 2 = 3 ↔ _
  omega

/-- The fetch (30_encoding.md R141, 60_exceptions.md R428): the first check that fails, or the word at `pc`. -/
theorem fetch_spec {s : State} (hv : configValid s.cfg = true) :
    (s.pc.toNat % 2 ≠ 0 → fetch s = .error .loadAddressMisaligned) ∧
    (s.pc.toNat % 2 = 0 → ¬Mapped s.cfg s.pc → fetch s = .error .loadAccessFault) ∧
    (s.pc.toNat % 2 = 0 → Mapped s.cfg s.pc → s.leAt s.pc 2 % 4 ≠ 3 →
      fetch s = .error (.illegalInstruction .compressed)) ∧
    (s.pc.toNat % 4 = 2 → Mapped s.cfg s.pc → s.leAt s.pc 2 % 4 = 3 → fetch s = .error .loadAddressMisaligned) ∧
    (s.pc.toNat % 4 = 0 → Mapped s.cfg s.pc → s.leAt s.pc 2 % 4 = 3 →
      fetch s = .ok (BitVec.ofNat 32 (s.leAt s.pc 4))) := by
  have hlt : s.leAt s.pc 2 < 2 ^ 16 := leAt_lt s 2 s.pc
  have hu := isUncompressed_iff _ hlt
  unfold fetch
  rcases memRead_cases hv s.pc (n := 2) (by decide) with ⟨h1, h⟩ | ⟨h1, h2, h⟩ | ⟨h1, h2, h, _⟩
  · rw [h]
    exact ⟨fun _ => rfl, fun h0 => absurd h0 h1, fun h0 => absurd h0 h1, fun h0 => by omega, fun h0 => by omega⟩
  · rw [h]
    exact ⟨fun h0 => absurd h1 h0, fun _ _ => rfl, fun _ h0 => absurd h0 h2, fun _ h0 => absurd h0 h2,
      fun _ h0 => absurd h0 h2⟩
  · rw [h]
    refine ⟨fun h0 => absurd h1 h0, fun _ h0 => absurd h2 h0, fun _ _ h0 => ?_, fun ha _ h0 => ?_, fun ha _ h0 => ?_⟩
    · simp only [show isUncompressed ((BitVec.ofNat 64 (s.leAt s.pc 2)).setWidth 16) = false from by
        rw [← Bool.not_eq_true, hu]; exact h0]
      rfl
    · simp only [hu.mpr h0, if_true]
      rcases memRead_cases hv s.pc (n := 4) (by decide) with ⟨_, h4⟩ | ⟨h4, _⟩ | ⟨h4, _⟩
      · rw [h4]
      · omega
      · omega
    · simp only [hu.mpr h0, if_true]
      rcases memRead_cases hv s.pc (n := 4) (by decide) with ⟨h4, _⟩ | ⟨_, h4, _⟩ | ⟨_, _, h4, h5⟩
      · exact absurd ha h4
      · exact absurd h2 h4
      · rw [h4]
        simp only
        congr 1
        apply BitVec.eq_of_toNat_eq
        rw [BitVec.toNat_setWidth, BitVec.toNat_ofNat, BitVec.toNat_ofNat]
        omega

end Sys2Proof.Machine
end

