-- ==== Sys2Proof/Laws/Encoding.lean ====
section
/-! SUPPORT. Laws/Encoding.lean: the fields of an encoded word, format by format; a word put together again from its fields; and
what `w & mask = match` says of the fields of `w`. -/

namespace Sys2Proof

theorem Enc.toNat_append {n m : Nat} (x : BitVec n) (y : BitVec m) : (x ++ y).toNat = x.toNat * 2 ^ m + y.toNat := by
  rw [BitVec.toNat_append, ← Nat.shiftLeft_add_eq_or_of_lt y.isLt, Nat.shiftLeft_eq]

theorem Enc.toNat_extract {n : Nat} (x : BitVec n) (s l : Nat) : (x.extractLsb' s l).toNat = x.toNat / 2 ^ s % 2 ^ l := by
  rw [BitVec.extractLsb'_toNat, Nat.shiftRight_eq_div_pow]

theorem Enc.toNat_ofBool (b : Bool) : (BitVec.ofBool b).toNat = b.toNat := by cases b <;> rfl

theorem Enc.getLsbD_eq {n : Nat} (x : BitVec n) (i : Nat) : x.getLsbD i = decide (x.toNat / 2 ^ i % 2 = 1) := by
  rw [BitVec.getLsbD, Nat.testBit_eq_decide_div_mod_eq]

theorem Enc.bool_ext {a b : Bool} (h : a.toNat = b.toNat) : a = b := by cases a <;> cases b <;> simp_all

theorem Enc.bit_toNat {n : Nat} (x : BitVec n) (i : Nat) : (x.getLsbD i).toNat = x.toNat / 2 ^ i % 2 := by
  rw [Enc.getLsbD_eq]
  by_cases h : x.toNat / 2 ^ i % 2 = 1
  · simp [h]
  · simp [h]; omega

/-! ### rType -/

theorem Enc.rType_toNat (f7 : BitVec 7) (rs2 rs1 : RegIdx) (f3 : BitVec 3) (rd : RegIdx) (op : BitVec 7) : (Enc.rType f7
    rs2 rs1 f3 rd op).toNat = f7.toNat * 2 ^ 25 + rs2.toNat * 2 ^ 20 + rs1.toNat * 2 ^ 15 + f3.toNat * 2 ^ 12 + rd.toNat * 2
    ^ 7 + op.toNat := by
  have h : (Enc.rType f7 rs2 rs1 f3 rd op).toNat = (f7 ++ rs2 ++ rs1 ++ f3 ++ rd ++ op).toNat := rfl
  rw [h]; simp only [Enc.toNat_append]; omega

@[simp] theorem Enc.rType_fields (f7 : BitVec 7) (rs2 rs1 : RegIdx) (f3 : BitVec 3) (rd : RegIdx) (op : BitVec 7) :
    Enc.opcode (Enc.rType f7 rs2 rs1 f3 rd op) = op ∧ Enc.rd (Enc.rType f7 rs2 rs1 f3 rd op) = rd ∧ Enc.funct3 (Enc.rType f7
    rs2 rs1 f3 rd op) = f3 ∧ Enc.rs1 (Enc.rType f7 rs2 rs1 f3 rd op) = rs1 ∧ Enc.rs2 (Enc.rType f7 rs2 rs1 f3 rd op) = rs2 ∧
    Enc.funct7 (Enc.rType f7 rs2 rs1 f3 rd op) = f7 := by
  have h := Enc.rType_toNat f7 rs2 rs1 f3 rd op
  have := f7.isLt; have := rs2.isLt; have := rs1.isLt; have := f3.isLt; have := rd.isLt; have := op.isLt
  refine ⟨?_, ?_, ?_, ?_, ?_, ?_⟩ <;> apply BitVec.eq_of_toNat_eq <;>
    simp only [Enc.opcode, Enc.rd, Enc.funct3, Enc.rs1, Enc.rs2, Enc.funct7, Enc.toNat_extract, h] <;> omega

/-! ### iType -/

theorem Enc.iType_toNat (imm : BitVec 12) (rs1 : RegIdx) (f3 : BitVec 3) (rd : RegIdx) (op : BitVec 7) : (Enc.iType imm
    rs1 f3 rd op).toNat = imm.toNat * 2 ^ 20 + rs1.toNat * 2 ^ 15 + f3.toNat * 2 ^ 12 + rd.toNat * 2 ^ 7 + op.toNat := by
  have h : (Enc.iType imm rs1 f3 rd op).toNat = (imm ++ rs1 ++ f3 ++ rd ++ op).toNat := rfl
  rw [h]; simp only [Enc.toNat_append]; omega

@[simp] theorem Enc.iType_fields (imm : BitVec 12) (rs1 : RegIdx) (f3 : BitVec 3) (rd : RegIdx) (op : BitVec 7) :
    Enc.opcode (Enc.iType imm rs1 f3 rd op) = op ∧ Enc.rd (Enc.iType imm rs1 f3 rd op) = rd ∧ Enc.funct3 (Enc.iType imm rs1
    f3 rd op) = f3 ∧ Enc.rs1 (Enc.iType imm rs1 f3 rd op) = rs1 ∧ Enc.immI (Enc.iType imm rs1 f3 rd op) = imm := by
  have h := Enc.iType_toNat imm rs1 f3 rd op
  have := imm.isLt; have := rs1.isLt; have := f3.isLt; have := rd.isLt; have := op.isLt
  refine ⟨?_, ?_, ?_, ?_, ?_⟩ <;> apply BitVec.eq_of_toNat_eq <;>
    simp only [Enc.opcode, Enc.rd, Enc.funct3, Enc.rs1, Enc.immI, Enc.toNat_extract, h] <;> omega

/-! ### iShift64 -/

theorem Enc.iShift64_toNat (f6 shamt : BitVec 6) (rs1 : RegIdx) (f3 : BitVec 3) (rd : RegIdx) (op : BitVec 7) :
    (Enc.iShift64 f6 shamt rs1 f3 rd op).toNat = f6.toNat * 2 ^ 26 + shamt.toNat * 2 ^ 20 + rs1.toNat * 2 ^ 15 + f3.toNat * 2
    ^ 12 + rd.toNat * 2 ^ 7 + op.toNat := by
  have h : (Enc.iShift64 f6 shamt rs1 f3 rd op).toNat = (f6 ++ shamt ++ rs1 ++ f3 ++ rd ++ op).toNat := rfl
  rw [h]; simp only [Enc.toNat_append]; omega

@[simp] theorem Enc.iShift64_fields (f6 shamt : BitVec 6) (rs1 : RegIdx) (f3 : BitVec 3) (rd : RegIdx) (op : BitVec 7) :
    Enc.opcode (Enc.iShift64 f6 shamt rs1 f3 rd op) = op ∧ Enc.rd (Enc.iShift64 f6 shamt rs1 f3 rd op) = rd ∧ Enc.funct3
    (Enc.iShift64 f6 shamt rs1 f3 rd op) = f3 ∧ Enc.rs1 (Enc.iShift64 f6 shamt rs1 f3 rd op) = rs1 ∧ Enc.shamt6 (Enc.iShift64
    f6 shamt rs1 f3 rd op) = shamt ∧ Enc.funct6 (Enc.iShift64 f6 shamt rs1 f3 rd op) = f6 := by
  have h := Enc.iShift64_toNat f6 shamt rs1 f3 rd op
  have := f6.isLt; have := shamt.isLt; have := rs1.isLt; have := f3.isLt; have := rd.isLt; have := op.isLt
  refine ⟨?_, ?_, ?_, ?_, ?_, ?_⟩ <;> apply BitVec.eq_of_toNat_eq <;>
    simp only [Enc.opcode, Enc.rd, Enc.funct3, Enc.rs1, Enc.shamt6, Enc.funct6, Enc.toNat_extract, h] <;> omega

/-! ### iShift32 -/

theorem Enc.iShift32_toNat (f7 : BitVec 7) (shamt : BitVec 5) (rs1 : RegIdx) (f3 : BitVec 3) (rd : RegIdx) (op : BitVec
    7) : (Enc.iShift32 f7 shamt rs1 f3 rd op).toNat = f7.toNat * 2 ^ 25 + shamt.toNat * 2 ^ 20 + rs1.toNat * 2 ^ 15 +
    f3.toNat * 2 ^ 12 + rd.toNat * 2 ^ 7 + op.toNat := by
  have h : (Enc.iShift32 f7 shamt rs1 f3 rd op).toNat = (f7 ++ shamt ++ rs1 ++ f3 ++ rd ++ op).toNat := rfl
  rw [h]; simp only [Enc.toNat_append]; omega

@[simp] theorem Enc.iShift32_fields (f7 : BitVec 7) (shamt : BitVec 5) (rs1 : RegIdx) (f3 : BitVec 3) (rd : RegIdx) (op :
    BitVec 7) : Enc.opcode (Enc.iShift32 f7 shamt rs1 f3 rd op) = op ∧ Enc.rd (Enc.iShift32 f7 shamt rs1 f3 rd op) = rd ∧
    Enc.funct3 (Enc.iShift32 f7 shamt rs1 f3 rd op) = f3 ∧ Enc.rs1 (Enc.iShift32 f7 shamt rs1 f3 rd op) = rs1 ∧ Enc.rs2
    (Enc.iShift32 f7 shamt rs1 f3 rd op) = shamt ∧ Enc.funct7 (Enc.iShift32 f7 shamt rs1 f3 rd op) = f7 := by
  have h := Enc.iShift32_toNat f7 shamt rs1 f3 rd op
  have := f7.isLt; have := shamt.isLt; have := rs1.isLt; have := f3.isLt; have := rd.isLt; have := op.isLt
  refine ⟨?_, ?_, ?_, ?_, ?_, ?_⟩ <;> apply BitVec.eq_of_toNat_eq <;>
    simp only [Enc.opcode, Enc.rd, Enc.funct3, Enc.rs1, Enc.rs2, Enc.funct7, Enc.toNat_extract, h] <;> omega

/-! ### iCsr -/

theorem Enc.iCsr_toNat (csr : CsrIdx) (rs1 : RegIdx) (f3 : BitVec 3) (rd : RegIdx) (op : BitVec 7) : (Enc.iCsr csr rs1 f3
    rd op).toNat = csr.toNat * 2 ^ 20 + rs1.toNat * 2 ^ 15 + f3.toNat * 2 ^ 12 + rd.toNat * 2 ^ 7 + op.toNat := by
  have h : (Enc.iCsr csr rs1 f3 rd op).toNat = (csr ++ rs1 ++ f3 ++ rd ++ op).toNat := rfl
  rw [h]; simp only [Enc.toNat_append]; omega

@[simp] theorem Enc.iCsr_fields (csr : CsrIdx) (rs1 : RegIdx) (f3 : BitVec 3) (rd : RegIdx) (op : BitVec 7) : Enc.opcode
    (Enc.iCsr csr rs1 f3 rd op) = op ∧ Enc.rd (Enc.iCsr csr rs1 f3 rd op) = rd ∧ Enc.funct3 (Enc.iCsr csr rs1 f3 rd op) = f3
    ∧ Enc.rs1 (Enc.iCsr csr rs1 f3 rd op) = rs1 ∧ Enc.csr (Enc.iCsr csr rs1 f3 rd op) = csr := by
  have h := Enc.iCsr_toNat csr rs1 f3 rd op
  have := csr.isLt; have := rs1.isLt; have := f3.isLt; have := rd.isLt; have := op.isLt
  refine ⟨?_, ?_, ?_, ?_, ?_⟩ <;> apply BitVec.eq_of_toNat_eq <;>
    simp only [Enc.opcode, Enc.rd, Enc.funct3, Enc.rs1, Enc.csr, Enc.toNat_extract, h] <;> omega

/-! ### uType -/

theorem Enc.uType_toNat (imm20 : BitVec 20) (rd : RegIdx) (op : BitVec 7) : (Enc.uType imm20 rd op).toNat = imm20.toNat *
    2 ^ 12 + rd.toNat * 2 ^ 7 + op.toNat := by
  have h : (Enc.uType imm20 rd op).toNat = (imm20 ++ rd ++ op).toNat := rfl
  rw [h]; simp only [Enc.toNat_append]; omega

@[simp] theorem Enc.uType_fields (imm20 : BitVec 20) (rd : RegIdx) (op : BitVec 7) : Enc.opcode (Enc.uType imm20 rd op) =
    op ∧ Enc.rd (Enc.uType imm20 rd op) = rd ∧ Enc.imm20 (Enc.uType imm20 rd op) = imm20 := by
  have h := Enc.uType_toNat imm20 rd op
  have := imm20.isLt; have := rd.isLt; have := op.isLt
  refine ⟨?_, ?_, ?_⟩ <;> apply BitVec.eq_of_toNat_eq <;>
    simp only [Enc.opcode, Enc.rd, Enc.imm20, Enc.toNat_extract, h] <;> omega

/-! ### A word put together again from its fields -/

theorem Enc.rType_of_fields (w : Word32) : Enc.rType (Enc.funct7 w) (Enc.rs2 w) (Enc.rs1 w) (Enc.funct3 w) (Enc.rd w)
    (Enc.opcode w) = w := by
  have := w.isLt
  apply BitVec.eq_of_toNat_eq
  rw [Enc.rType_toNat]
  simp only [Enc.funct7, Enc.rs2, Enc.rs1, Enc.funct3, Enc.rd, Enc.opcode, Enc.toNat_extract]
  omega

theorem Enc.iType_of_fields (w : Word32) : Enc.iType (Enc.immI w) (Enc.rs1 w) (Enc.funct3 w) (Enc.rd w) (Enc.opcode w) =
    w := by
  have := w.isLt
  apply BitVec.eq_of_toNat_eq
  rw [Enc.iType_toNat]
  simp only [Enc.immI, Enc.rs1, Enc.funct3, Enc.rd, Enc.opcode, Enc.toNat_extract]
  omega

theorem Enc.iShift64_of_fields (w : Word32) : Enc.iShift64 (Enc.funct6 w) (Enc.shamt6 w) (Enc.rs1 w) (Enc.funct3 w)
    (Enc.rd w) (Enc.opcode w) = w := by
  have := w.isLt
  apply BitVec.eq_of_toNat_eq
  rw [Enc.iShift64_toNat]
  simp only [Enc.funct6, Enc.shamt6, Enc.rs1, Enc.funct3, Enc.rd, Enc.opcode, Enc.toNat_extract]
  omega

theorem Enc.iShift32_of_fields (w : Word32) : Enc.iShift32 (Enc.funct7 w) (Enc.rs2 w) (Enc.rs1 w) (Enc.funct3 w) (Enc.rd
    w) (Enc.opcode w) = w := by
  have := w.isLt
  apply BitVec.eq_of_toNat_eq
  rw [Enc.iShift32_toNat]
  simp only [Enc.funct7, Enc.rs2, Enc.rs1, Enc.funct3, Enc.rd, Enc.opcode, Enc.toNat_extract]
  omega

theorem Enc.iCsr_of_fields (w : Word32) : Enc.iCsr (Enc.csr w) (Enc.rs1 w) (Enc.funct3 w) (Enc.rd w) (Enc.opcode w) = w
    := by
  have := w.isLt
  apply BitVec.eq_of_toNat_eq
  rw [Enc.iCsr_toNat]
  simp only [Enc.csr, Enc.rs1, Enc.funct3, Enc.rd, Enc.opcode, Enc.toNat_extract]
  omega

theorem Enc.uType_of_fields (w : Word32) : Enc.uType (Enc.imm20 w) (Enc.rd w) (Enc.opcode w) = w := by
  have := w.isLt
  apply BitVec.eq_of_toNat_eq
  rw [Enc.uType_toNat]
  simp only [Enc.imm20, Enc.rd, Enc.opcode, Enc.toNat_extract]
  omega

/-! ### The formats whose immediate is cut into pieces, over the formats above -/

theorem Enc.immI_split (w : Word32) : Enc.fm w ++ Enc.pred w ++ Enc.succ w = Enc.immI w := by
  apply BitVec.eq_of_toNat_eq
  simp only [Enc.fm, Enc.pred, Enc.succ, Enc.immI, Enc.toNat_append, Enc.toNat_extract]
  omega

theorem Enc.fence_split {w : Word32} {fm pred succ : BitVec 4} (h : Enc.immI w = fm ++ pred ++ succ) :
    Enc.fm w = fm ∧ Enc.pred w = pred ∧ Enc.succ w = succ := by
  have h := congrArg BitVec.toNat h
  simp only [Enc.immI, Enc.toNat_append, Enc.toNat_extract] at h
  have := fm.isLt; have := pred.isLt; have := succ.isLt
  refine ⟨?_, ?_, ?_⟩ <;> apply BitVec.eq_of_toNat_eq <;>
    simp only [Enc.fm, Enc.pred, Enc.succ, Enc.toNat_extract] <;> omega

theorem Enc.iFence_eq (fm pred succ : BitVec 4) (rs1 : RegIdx) (f3 : BitVec 3) (rd : RegIdx) (op : BitVec 7) :
    Enc.iFence fm pred succ rs1 f3 rd op = Enc.iType (fm ++ pred ++ succ) rs1 f3 rd op := rfl

@[simp] theorem Enc.iFence_fields (fm pred succ : BitVec 4) (rs1 : RegIdx) (f3 : BitVec 3) (rd : RegIdx) (op : BitVec 7) :
    Enc.opcode (Enc.iFence fm pred succ rs1 f3 rd op) = op ∧ Enc.rd (Enc.iFence fm pred succ rs1 f3 rd op) = rd ∧
    Enc.funct3 (Enc.iFence fm pred succ rs1 f3 rd op) = f3 ∧ Enc.rs1 (Enc.iFence fm pred succ rs1 f3 rd op) = rs1 ∧
    Enc.fm (Enc.iFence fm pred succ rs1 f3 rd op) = fm ∧ Enc.pred (Enc.iFence fm pred succ rs1 f3 rd op) = pred ∧
    Enc.succ (Enc.iFence fm pred succ rs1 f3 rd op) = succ := by
  rw [Enc.iFence_eq]
  obtain ⟨h1, h2, h3, h4, h5⟩ := Enc.iType_fields (fm ++ pred ++ succ) rs1 f3 rd op
  obtain ⟨a, b, c⟩ := Enc.fence_split h5
  exact ⟨h1, h2, h3, h4, a, b, c⟩

theorem Enc.iFence_of_fields (w : Word32) :
    Enc.iFence (Enc.fm w) (Enc.pred w) (Enc.succ w) (Enc.rs1 w) (Enc.funct3 w) (Enc.rd w) (Enc.opcode w) = w := by
  rw [Enc.iFence_eq, Enc.immI_split, Enc.iType_of_fields]

theorem Enc.funct7_split (w : Word32) :
    Enc.funct5 w ++ BitVec.ofBool (Enc.aq w) ++ BitVec.ofBool (Enc.rl w) = Enc.funct7 w := by
  apply BitVec.eq_of_toNat_eq
  simp only [Enc.funct5, Enc.funct7, Enc.aq, Enc.rl, Enc.toNat_append, Enc.toNat_extract, Enc.toNat_ofBool, Enc.bit_toNat]
  omega

theorem Enc.amo_split {w : Word32} {f5 : BitVec 5} {aq rl : Bool}
    (h : Enc.funct7 w = f5 ++ BitVec.ofBool aq ++ BitVec.ofBool rl) :
    Enc.funct5 w = f5 ∧ Enc.aq w = aq ∧ Enc.rl w = rl := by
  have h := congrArg BitVec.toNat h
  simp only [Enc.funct7, Enc.toNat_append, Enc.toNat_extract, Enc.toNat_ofBool] at h
  have := f5.isLt; have := aq.toNat_lt; have := rl.toNat_lt
  refine ⟨BitVec.eq_of_toNat_eq ?_, Enc.bool_ext ?_, Enc.bool_ext ?_⟩
  · simp only [Enc.funct5, Enc.toNat_extract]; omega
  · simp only [Enc.aq, Enc.bit_toNat]; omega
  · simp only [Enc.rl, Enc.bit_toNat]; omega

theorem Enc.aType_eq (f5 : BitVec 5) (aq rl : Bool) (rs2 rs1 : RegIdx) (f3 : BitVec 3) (rd : RegIdx) (op : BitVec 7) :
    Enc.aType f5 aq rl rs2 rs1 f3 rd op = Enc.rType (f5 ++ BitVec.ofBool aq ++ BitVec.ofBool rl) rs2 rs1 f3 rd op := rfl

@[simp] theorem Enc.aType_fields (f5 : BitVec 5) (aq rl : Bool) (rs2 rs1 : RegIdx) (f3 : BitVec 3) (rd : RegIdx)
    (op : BitVec 7) :
    Enc.opcode (Enc.aType f5 aq rl rs2 rs1 f3 rd op) = op ∧ Enc.rd (Enc.aType f5 aq rl rs2 rs1 f3 rd op) = rd ∧
    Enc.funct3 (Enc.aType f5 aq rl rs2 rs1 f3 rd op) = f3 ∧ Enc.rs1 (Enc.aType f5 aq rl rs2 rs1 f3 rd op) = rs1 ∧
    Enc.rs2 (Enc.aType f5 aq rl rs2 rs1 f3 rd op) = rs2 ∧ Enc.funct5 (Enc.aType f5 aq rl rs2 rs1 f3 rd op) = f5 ∧
    Enc.aq (Enc.aType f5 aq rl rs2 rs1 f3 rd op) = aq ∧ Enc.rl (Enc.aType f5 aq rl rs2 rs1 f3 rd op) = rl := by
  rw [Enc.aType_eq]
  obtain ⟨h1, h2, h3, h4, h5, h6⟩ := Enc.rType_fields (f5 ++ BitVec.ofBool aq ++ BitVec.ofBool rl) rs2 rs1 f3 rd op
  obtain ⟨a, b, c⟩ := Enc.amo_split h6
  exact ⟨h1, h2, h3, h4, h5, a, b, c⟩

theorem Enc.aType_of_fields (w : Word32) :
    Enc.aType (Enc.funct5 w) (Enc.aq w) (Enc.rl w) (Enc.rs2 w) (Enc.rs1 w) (Enc.funct3 w) (Enc.rd w) (Enc.opcode w) = w := by
  rw [Enc.aType_eq, Enc.funct7_split, Enc.rType_of_fields]

theorem Enc.sType_eq (imm : BitVec 12) (rs2 rs1 : RegIdx) (f3 : BitVec 3) (op : BitVec 7) :
    Enc.sType imm rs2 rs1 f3 op = Enc.rType (imm.extractLsb' 5 7) rs2 rs1 f3 (imm.extractLsb' 0 5) op := rfl

@[simp] theorem Enc.sType_fields (imm : BitVec 12) (rs2 rs1 : RegIdx) (f3 : BitVec 3) (op : BitVec 7) :
    Enc.opcode (Enc.sType imm rs2 rs1 f3 op) = op ∧ Enc.funct3 (Enc.sType imm rs2 rs1 f3 op) = f3 ∧
    Enc.rs1 (Enc.sType imm rs2 rs1 f3 op) = rs1 ∧ Enc.rs2 (Enc.sType imm rs2 rs1 f3 op) = rs2 ∧
    Enc.immS (Enc.sType imm rs2 rs1 f3 op) = imm := by
  rw [Enc.sType_eq]
  obtain ⟨h1, h2, h3, h4, h5, h6⟩ := Enc.rType_fields (imm.extractLsb' 5 7) rs2 rs1 f3 (imm.extractLsb' 0 5) op
  refine ⟨h1, h3, h4, h5, ?_⟩
  have := imm.isLt
  rw [Enc.immS, h2, h6]
  apply BitVec.eq_of_toNat_eq
  simp only [Enc.toNat_append, Enc.toNat_extract]
  omega

theorem Enc.sType_of_fields (w : Word32) :
    Enc.sType (Enc.immS w) (Enc.rs2 w) (Enc.rs1 w) (Enc.funct3 w) (Enc.opcode w) = w := by
  have h7 : (Enc.immS w).extractLsb' 5 7 = Enc.funct7 w := by
    have := (Enc.funct7 w).isLt; have := (Enc.rd w).isLt
    apply BitVec.eq_of_toNat_eq
    simp only [Enc.immS, Enc.toNat_append, Enc.toNat_extract (Enc.funct7 w ++ Enc.rd w)]
    omega
  have h5 : (Enc.immS w).extractLsb' 0 5 = Enc.rd w := by
    have := (Enc.funct7 w).isLt; have := (Enc.rd w).isLt
    apply BitVec.eq_of_toNat_eq
    simp only [Enc.immS, Enc.toNat_append, Enc.toNat_extract (Enc.funct7 w ++ Enc.rd w)]
    omega
  rw [Enc.sType_eq, h7, h5, Enc.rType_of_fields]

theorem Enc.extract_append_hi {n m : Nat} (x : BitVec n) (y : BitVec m) : (x ++ y).extractLsb' m n = x := by
  apply BitVec.eq_of_toNat_eq
  rw [Enc.toNat_extract, Enc.toNat_append, Nat.mul_comm, Nat.mul_add_div (Nat.two_pow_pos m), Nat.div_eq_of_lt y.isLt,
    Nat.add_zero, Nat.mod_eq_of_lt x.isLt]

theorem Enc.extract_append_lo {n m : Nat} (x : BitVec n) (y : BitVec m) : (x ++ y).extractLsb' 0 m = y := by
  apply BitVec.eq_of_toNat_eq
  rw [Enc.toNat_extract, Enc.toNat_append, Nat.pow_zero, Nat.div_one, Nat.mul_comm, Nat.mul_add_mod, Nat.mod_eq_of_lt y.isLt]

/-- A branch offset from the pieces a word holds. -/
def Enc.offsetB (f7 : BitVec 7) (rd : BitVec 5) : BitVec 13 :=
  f7.extractLsb' 6 1 ++ rd.extractLsb' 0 1 ++ f7.extractLsb' 0 6 ++ rd.extractLsb' 1 4 ++ 0#1

theorem Enc.immB_eq (w : Word32) : Enc.immB w = Enc.offsetB (Enc.funct7 w) (Enc.rd w) := by
  have h1 : (Enc.funct7 w).extractLsb' 6 1 = w.extractLsb' 31 1 := by
    apply BitVec.eq_of_toNat_eq; simp only [Enc.funct7, Enc.toNat_extract]; omega
  have h2 : (Enc.rd w).extractLsb' 0 1 = w.extractLsb' 7 1 := by
    apply BitVec.eq_of_toNat_eq; simp only [Enc.rd, Enc.toNat_extract]; omega
  have h3 : (Enc.funct7 w).extractLsb' 0 6 = w.extractLsb' 25 6 := by
    apply BitVec.eq_of_toNat_eq; simp only [Enc.funct7, Enc.toNat_extract]; omega
  have h4 : (Enc.rd w).extractLsb' 1 4 = w.extractLsb' 8 4 := by
    apply BitVec.eq_of_toNat_eq; simp only [Enc.rd, Enc.toNat_extract]; omega
  rw [Enc.immB, Enc.offsetB, h1, h2, h3, h4]

/-- The two fields of a branch word that hold its offset. -/
def Enc.offsetHi (offset : BitVec 13) : BitVec 7 := offset.extractLsb' 12 1 ++ offset.extractLsb' 5 6
def Enc.offsetLo (offset : BitVec 13) : BitVec 5 := offset.extractLsb' 1 4 ++ offset.extractLsb' 11 1

theorem Enc.bType_eq (offset : BitVec 13) (rs2 rs1 : RegIdx) (f3 : BitVec 3) (op : BitVec 7) :
    Enc.bType offset rs2 rs1 f3 op = Enc.rType (Enc.offsetHi offset) rs2 rs1 f3 (Enc.offsetLo offset) op := by
  apply BitVec.eq_of_toNat_eq
  have h : (Enc.bType offset rs2 rs1 f3 op).toNat = (offset.extractLsb' 12 1 ++ offset.extractLsb' 5 6 ++ rs2 ++ rs1 ++ f3
    ++ offset.extractLsb' 1 4 ++ offset.extractLsb' 11 1 ++ op).toNat := rfl
  rw [h, Enc.rType_toNat]
  simp only [Enc.offsetHi, Enc.offsetLo, Enc.toNat_append]
  omega

theorem Enc.offset_even {offset : BitVec 13} : branchOffsetOk offset = true ↔ offset.toNat % 2 = 0 := by
  rw [branchOffsetOk, Enc.getLsbD_eq, Bool.not_eq_true', decide_eq_false_iff_not]
  omega

theorem Enc.jumpOffset_even {offset : BitVec 21} : jumpOffsetOk offset = true ↔ offset.toNat % 2 = 0 := by
  rw [jumpOffsetOk, Enc.getLsbD_eq, Bool.not_eq_true', decide_eq_false_iff_not]
  omega

theorem Enc.offsetB_of_pieces {offset : BitVec 13} (h : branchOffsetOk offset = true) :
    Enc.offsetB (Enc.offsetHi offset) (Enc.offsetLo offset) = offset := by
  rw [Enc.offset_even] at h
  have := offset.isLt
  rw [Enc.offsetB, Enc.offsetHi, Enc.offsetLo]
  rw [Enc.extract_append_hi (offset.extractLsb' 12 1), Enc.extract_append_lo (offset.extractLsb' 12 1),
    Enc.extract_append_hi (offset.extractLsb' 1 4), Enc.extract_append_lo (offset.extractLsb' 1 4)]
  apply BitVec.eq_of_toNat_eq
  simp only [Enc.toNat_append, Enc.toNat_extract, BitVec.toNat_ofNat]
  omega

theorem Enc.pieces_of_append (p s : BitVec 1) (q : BitVec 6) (r : BitVec 4) :
    Enc.offsetHi (p ++ s ++ q ++ r ++ 0#1) = p ++ q ∧ Enc.offsetLo (p ++ s ++ q ++ r ++ 0#1) = r ++ s := by
  have := p.isLt; have := q.isLt; have := r.isLt; have := s.isLt
  have h : (p ++ s ++ q ++ r ++ 0#1).toNat = p.toNat * 2 ^ 12 + s.toNat * 2 ^ 11 + q.toNat * 2 ^ 5 + r.toNat * 2 := by
    simp only [Enc.toNat_append, BitVec.toNat_ofNat]; omega
  have h1 : (p ++ s ++ q ++ r ++ 0#1).extractLsb' 12 1 = p := by
    apply BitVec.eq_of_toNat_eq; rw [Enc.toNat_extract, h]; omega
  have h2 : (p ++ s ++ q ++ r ++ 0#1).extractLsb' 5 6 = q := by
    apply BitVec.eq_of_toNat_eq; rw [Enc.toNat_extract, h]; omega
  have h3 : (p ++ s ++ q ++ r ++ 0#1).extractLsb' 1 4 = r := by
    apply BitVec.eq_of_toNat_eq; rw [Enc.toNat_extract, h]; omega
  have h4 : (p ++ s ++ q ++ r ++ 0#1).extractLsb' 11 1 = s := by
    apply BitVec.eq_of_toNat_eq; rw [Enc.toNat_extract, h]; omega
  rw [Enc.offsetHi, Enc.offsetLo, h1, h2, h3, h4]
  exact ⟨rfl, rfl⟩

theorem Enc.append_of_extract {n m : Nat} (x : BitVec (n + m)) : x.extractLsb' m n ++ x.extractLsb' 0 m = x := by
  apply BitVec.eq_of_toNat_eq
  rw [Enc.toNat_append, Enc.toNat_extract, Enc.toNat_extract, Nat.pow_zero, Nat.div_one, Nat.mod_eq_of_lt, Nat.mul_comm]
  · exact Nat.div_add_mod _ _
  · rw [Nat.div_lt_iff_lt_mul (Nat.two_pow_pos m), ← Nat.pow_add]; exact x.isLt

theorem Enc.pieces_of_offsetB (f7 : BitVec 7) (rd : BitVec 5) :
    Enc.offsetHi (Enc.offsetB f7 rd) = f7 ∧ Enc.offsetLo (Enc.offsetB f7 rd) = rd := by
  obtain ⟨h1, h2⟩ := Enc.pieces_of_append (f7.extractLsb' 6 1) (rd.extractLsb' 0 1) (f7.extractLsb' 0 6)
    (rd.extractLsb' 1 4)
  rw [Enc.offsetB, h1, h2]
  exact ⟨Enc.append_of_extract (n := 1) (m := 6) f7, Enc.append_of_extract (n := 4) (m := 1) rd⟩

@[simp] theorem Enc.bType_fields (offset : BitVec 13) (rs2 rs1 : RegIdx) (f3 : BitVec 3) (op : BitVec 7) :
    Enc.opcode (Enc.bType offset rs2 rs1 f3 op) = op ∧ Enc.funct3 (Enc.bType offset rs2 rs1 f3 op) = f3 ∧
    Enc.rs1 (Enc.bType offset rs2 rs1 f3 op) = rs1 ∧ Enc.rs2 (Enc.bType offset rs2 rs1 f3 op) = rs2 := by
  rw [Enc.bType_eq]
  obtain ⟨h1, _, h3, h4, h5, _⟩ := Enc.rType_fields (Enc.offsetHi offset) rs2 rs1 f3 (Enc.offsetLo offset) op
  exact ⟨h1, h3, h4, h5⟩

theorem Enc.immB_bType {offset : BitVec 13} (rs2 rs1 : RegIdx) (f3 : BitVec 3) (op : BitVec 7)
    (h : branchOffsetOk offset = true) : Enc.immB (Enc.bType offset rs2 rs1 f3 op) = offset := by
  obtain ⟨_, h2, _, _, _, h6⟩ := Enc.rType_fields (Enc.offsetHi offset) rs2 rs1 f3 (Enc.offsetLo offset) op
  rw [Enc.immB_eq, Enc.bType_eq, h2, h6, Enc.offsetB_of_pieces h]

theorem Enc.bType_of_fields (w : Word32) :
    Enc.bType (Enc.immB w) (Enc.rs2 w) (Enc.rs1 w) (Enc.funct3 w) (Enc.opcode w) = w := by
  obtain ⟨h1, h2⟩ := Enc.pieces_of_offsetB (Enc.funct7 w) (Enc.rd w)
  rw [Enc.bType_eq, Enc.immB_eq, h1, h2, Enc.rType_of_fields]

/-- A JAL offset from the 20-bit field a word holds. -/
def Enc.offsetJ (f : BitVec 20) : BitVec 21 :=
  f.extractLsb' 19 1 ++ f.extractLsb' 0 8 ++ f.extractLsb' 8 1 ++ f.extractLsb' 9 10 ++ 0#1

/-- The field of a JAL word that holds its offset. -/
def Enc.offsetField (offset : BitVec 21) : BitVec 20 :=
  offset.extractLsb' 20 1 ++ offset.extractLsb' 1 10 ++ offset.extractLsb' 11 1 ++ offset.extractLsb' 12 8

theorem Enc.immJ_eq (w : Word32) : Enc.immJ w = Enc.offsetJ (Enc.imm20 w) := by
  have h1 : (Enc.imm20 w).extractLsb' 19 1 = w.extractLsb' 31 1 := by
    apply BitVec.eq_of_toNat_eq; simp only [Enc.imm20, Enc.toNat_extract]; omega
  have h2 : (Enc.imm20 w).extractLsb' 0 8 = w.extractLsb' 12 8 := by
    apply BitVec.eq_of_toNat_eq; simp only [Enc.imm20, Enc.toNat_extract]; omega
  have h3 : (Enc.imm20 w).extractLsb' 8 1 = w.extractLsb' 20 1 := by
    apply BitVec.eq_of_toNat_eq; simp only [Enc.imm20, Enc.toNat_extract]; omega
  have h4 : (Enc.imm20 w).extractLsb' 9 10 = w.extractLsb' 21 10 := by
    apply BitVec.eq_of_toNat_eq; simp only [Enc.imm20, Enc.toNat_extract]; omega
  rw [Enc.immJ, Enc.offsetJ, h1, h2, h3, h4]

theorem Enc.jType_eq (offset : BitVec 21) (rd : RegIdx) (op : BitVec 7) :
    Enc.jType offset rd op = Enc.uType (Enc.offsetField offset) rd op := rfl

theorem Enc.field_of_pieces (p r : BitVec 1) (q : BitVec 10) (t : BitVec 8) :
    (p ++ q ++ r ++ t).extractLsb' 19 1 = p ∧ (p ++ q ++ r ++ t).extractLsb' 9 10 = q ∧
    (p ++ q ++ r ++ t).extractLsb' 8 1 = r ∧ (p ++ q ++ r ++ t).extractLsb' 0 8 = t := by
  have := p.isLt; have := q.isLt; have := r.isLt; have := t.isLt
  have h : (p ++ q ++ r ++ t).toNat = p.toNat * 2 ^ 19 + q.toNat * 2 ^ 9 + r.toNat * 2 ^ 8 + t.toNat := by
    simp only [Enc.toNat_append]; omega
  refine ⟨?_, ?_, ?_, ?_⟩ <;> apply BitVec.eq_of_toNat_eq <;> rw [Enc.toNat_extract, h] <;> omega

theorem Enc.offsetJ_of_field {offset : BitVec 21} (h : jumpOffsetOk offset = true) :
    Enc.offsetJ (Enc.offsetField offset) = offset := by
  rw [Enc.jumpOffset_even] at h
  have := offset.isLt
  obtain ⟨h1, h2, h3, h4⟩ := Enc.field_of_pieces (offset.extractLsb' 20 1) (offset.extractLsb' 11 1)
    (offset.extractLsb' 1 10) (offset.extractLsb' 12 8)
  rw [Enc.offsetJ, Enc.offsetField, h1, h2, h3, h4]
  apply BitVec.eq_of_toNat_eq
  simp only [Enc.toNat_append, Enc.toNat_extract, BitVec.toNat_ofNat]
  omega

theorem Enc.offsetField_of_pieces (p r : BitVec 1) (q : BitVec 10) (t : BitVec 8) :
    Enc.offsetField (p ++ t ++ r ++ q ++ 0#1) = p ++ q ++ r ++ t := by
  have := p.isLt; have := q.isLt; have := r.isLt; have := t.isLt
  have h : (p ++ t ++ r ++ q ++ 0#1).toNat = p.toNat * 2 ^ 20 + t.toNat * 2 ^ 12 + r.toNat * 2 ^ 11 + q.toNat * 2 := by
    simp only [Enc.toNat_append, BitVec.toNat_ofNat]; omega
  have h1 : (p ++ t ++ r ++ q ++ 0#1).extractLsb' 20 1 = p := by
    apply BitVec.eq_of_toNat_eq; rw [Enc.toNat_extract, h]; omega
  have h2 : (p ++ t ++ r ++ q ++ 0#1).extractLsb' 1 10 = q := by
    apply BitVec.eq_of_toNat_eq; rw [Enc.toNat_extract, h]; omega
  have h3 : (p ++ t ++ r ++ q ++ 0#1).extractLsb' 11 1 = r := by
    apply BitVec.eq_of_toNat_eq; rw [Enc.toNat_extract, h]; omega
  have h4 : (p ++ t ++ r ++ q ++ 0#1).extractLsb' 12 8 = t := by
    apply BitVec.eq_of_toNat_eq; rw [Enc.toNat_extract, h]; omega
  rw [Enc.offsetField, h1, h2, h3, h4]

theorem Enc.field_of_offsetJ (f : BitVec 20) : Enc.offsetField (Enc.offsetJ f) = f := by
  have := f.isLt
  rw [Enc.offsetJ, Enc.offsetField_of_pieces]
  apply BitVec.eq_of_toNat_eq
  simp only [Enc.toNat_append, Enc.toNat_extract]
  omega

@[simp] theorem Enc.jType_fields (offset : BitVec 21) (rd : RegIdx) (op : BitVec 7) :
    Enc.opcode (Enc.jType offset rd op) = op ∧ Enc.rd (Enc.jType offset rd op) = rd := by
  rw [Enc.jType_eq]
  exact ⟨(Enc.uType_fields _ _ _).1, (Enc.uType_fields _ _ _).2.1⟩

theorem Enc.immJ_jType {offset : BitVec 21} (rd : RegIdx) (op : BitVec 7) (h : jumpOffsetOk offset = true) :
    Enc.immJ (Enc.jType offset rd op) = offset := by
  rw [Enc.immJ_eq, Enc.jType_eq, (Enc.uType_fields _ _ _).2.2, Enc.offsetJ_of_field h]

theorem Enc.jType_of_fields (w : Word32) : Enc.jType (Enc.immJ w) (Enc.rd w) (Enc.opcode w) = w := by
  rw [Enc.jType_eq, Enc.immJ_eq, Enc.field_of_offsetJ, Enc.uType_of_fields]

/-- The offset a branch word holds is even (30_encoding.md R152). -/
theorem Enc.immB_even (w : Word32) : branchOffsetOk (Enc.immB w) = true := by
  rw [Enc.offset_even, Enc.immB, Enc.toNat_append, BitVec.toNat_ofNat]; omega

/-- The offset a JAL word holds is even (30_encoding.md R154). -/
theorem Enc.immJ_even (w : Word32) : jumpOffsetOk (Enc.immJ w) = true := by
  rw [Enc.jumpOffset_even, Enc.immJ, Enc.toNat_append, BitVec.toNat_ofNat]; omega

/-! ### What `w & mask = match` says of a field that the mask fixes whole -/

theorem Enc.field_of_mask {w mask m : Word32} (h : w &&& mask = m) (s : Nat) {l : Nat}
    (hm : mask.extractLsb' s l = BitVec.allOnes l) : w.extractLsb' s l = m.extractLsb' s l := by
  rw [← h, BitVec.extractLsb'_and, hm, BitVec.and_allOnes]

/-- The four bytes of a word form the word again (20_memory.md R99). -/
theorem wordOfBytes_bytesOfWord (w : Word32) :
    wordOfBytes (w.extractLsb' 0 8) (w.extractLsb' 8 8) (w.extractLsb' 16 8) (w.extractLsb' 24 8) = w := by
  unfold wordOfBytes
  apply BitVec.eq_of_toNat_eq
  have := w.isLt
  simp only [Enc.toNat_append, Enc.toNat_extract]
  omega

end Sys2Proof
end

