-- ==== Sys2Proof/Laws/Numbers.lean ====
section
/-! SUPPORT. Laws/Numbers.lean: the integers of the claims (Safety.lean: `wordOf`, `unsignedN`, `signedN`, `sextN`) against the
bit vectors of the machine. -/

namespace Sys2Proof.Machine

theorem wordOf_eq_iff {a b : Int} : wordOf a = wordOf b ↔ a % 2 ^ 64 = b % 2 ^ 64 := by
  rw [wordOf, wordOf, ← BitVec.toInt_inj, BitVec.toInt_ofInt, BitVec.toInt_ofInt]
  constructor
  · intro h
    have := congrArg (fun x => x % ((2 ^ 64 : Nat) : Int)) h
    simp only [Int.bmod_emod] at this
    exact_mod_cast this
  · intro h
    rw [← Int.emod_bmod (x := a), ← Int.emod_bmod (x := b)]
    norm_num at h ⊢
    rw [h]

@[simp] theorem wordOf_toNat (v : Word) : wordOf v.toNat = v := by
  apply BitVec.eq_of_toNat_eq
  have := v.isLt
  rw [wordOf, BitVec.toNat_ofInt]; omega

@[simp] theorem wordOf_toInt (v : Word) : wordOf v.toInt = v := BitVec.ofInt_toInt

theorem wordOf_natCast (n : Nat) : wordOf n = BitVec.ofNat 64 n := BitVec.ofInt_natCast ..

theorem toNat_wordOf (v : Int) : ((wordOf v).toNat : Int) = v % 2 ^ 64 := by
  rw [wordOf, BitVec.toNat_ofInt]; omega

/-- A 64-bit value is `wordOf v` when its unsigned reading is `v` modulo 2^64. -/
theorem eq_wordOf {x : Word} {v : Int} (h : (x.toNat : Int) % 2 ^ 64 = v % 2 ^ 64) : x = wordOf v := by
  rw [← wordOf_toNat x, wordOf_eq_iff]; exact h

theorem wrapN_emod {n : Nat} (v : Int) : wrapN n v % 2 ^ n = v % 2 ^ n := by
  unfold wrapN; split
  · exact Int.emod_emod_of_dvd _ (dvd_refl _)
  · rw [Int.sub_emod, Int.emod_self, Int.sub_zero, Int.emod_emod_of_dvd _ (dvd_refl _), Int.emod_emod_of_dvd _ (dvd_refl _)]

/-- `wrapN` is the reading of the N-bit value. -/
theorem wrapN_eq {n : Nat} (hn : 0 < n) (v : Int) : wrapN n v = (BitVec.ofInt n v).toInt := by
  have hp : (0 : Int) < 2 ^ n := Int.pow_pos (by omega)
  have h2 : (2 : Int) ^ n = 2 * 2 ^ (n - 1) := by rw [← Int.pow_succ']; congr 1; omega
  have hm : ((BitVec.ofInt n v).toNat : Int) = v % 2 ^ n := by
    rw [BitVec.toNat_ofInt, Int.toNat_of_nonneg (Int.emod_nonneg _ (by norm_num))]; norm_num
  have hc : (2 * (BitVec.ofInt n v).toNat < 2 ^ n) ↔ v % 2 ^ n < 2 ^ (n - 1) := by
    rw [← hm]
    constructor
    · intro h
      have : (2 * ((BitVec.ofInt n v).toNat : Int)) < 2 ^ n := by exact_mod_cast h
      omega
    · intro h
      have : (2 * ((BitVec.ofInt n v).toNat : Int)) < 2 ^ n := by omega
      exact_mod_cast this
  rw [BitVec.toInt, wrapN]
  by_cases h : v % 2 ^ n < 2 ^ (n - 1)
  · rw [if_pos h, if_pos (hc.mpr h), hm]
  · rw [if_neg h, if_neg (fun h' => h (hc.mp h')), hm]; norm_num

theorem signedN_eq {n : Nat} (hn : 0 < n) (v : Word) : signedN n v = (v.setWidth n).toInt := by
  rw [signedN, wrapN_eq hn, BitVec.ofInt_natCast, BitVec.ofNat_toNat]

@[simp] theorem signedN_64 (v : Word) : signedN 64 v = v.toInt := by
  rw [signedN_eq (by decide)]; simp

theorem unsignedN_eq (n : Nat) (v : Word) : unsignedN n v = (v.setWidth n).toNat := by
  rw [unsignedN, BitVec.toNat_setWidth]

@[simp] theorem unsignedN_64 (v : Word) : unsignedN 64 v = v.toNat := Nat.mod_eq_of_lt v.isLt

/-- `sextN` is the sign extension of the N-bit value. -/
theorem sextN_eq {n : Nat} (hn : 0 < n) (v : Int) : sextN n v = (BitVec.ofInt n v).signExtend 64 := by
  rw [sextN, wordOf, wrapN_eq hn, BitVec.signExtend]

/-- `sextN` depends on the low N bits only. -/
theorem sextN_congr {n : Nat} {a b : Int} (h : a % 2 ^ n = b % 2 ^ n) : sextN n a = sextN n b := by
  rw [sextN, sextN, wrapN, wrapN, h]

/-- A 32-bit result, sign-extended, is `sextN 32 v` when its unsigned reading is `v` modulo 2^32. -/
theorem sext32_eq {r : Word32} {v : Int} (h : (r.toNat : Int) % 2 ^ 32 = v % 2 ^ 32) : sext32 r = sextN 32 v := by
  rw [← sextN_congr h, sextN_eq (by decide), sext32, BitVec.ofInt_natCast, BitVec.ofNat_toNat]; simp

theorem sext32_eq_toInt (r : Word32) : sext32 r = sextN 32 r.toInt := by
  rw [sextN_eq (by decide), BitVec.ofInt_toInt, sext32]

theorem readX32_toNat (s : State) (r : RegIdx) : (s.readX32 r).toNat = unsignedN 32 (s.readX r) := by
  rw [unsignedN_eq, State.readX32]

theorem readX32_toInt (s : State) (r : RegIdx) : (s.readX32 r).toInt = signedN 32 (s.readX r) := by
  rw [signedN_eq (by decide), State.readX32]

theorem shamt6_eq (s : State) (r : RegIdx) : s.shamt6 r = (s.readX r).toNat % 64 := by
  rw [State.shamt6, BitVec.extractLsb'_toNat, Nat.shiftRight_zero]

theorem shamt5_eq (s : State) (r : RegIdx) : s.shamt5 r = (s.readX r).toNat % 32 := by
  rw [State.shamt5, BitVec.extractLsb'_toNat, Nat.shiftRight_zero]

end Sys2Proof.Machine
end

