-- ==== Sys2Proof/Laws/PerInstr.lean ====
section
/-! SUPPORT. Laws/PerInstr.lean: statements made per instruction. Family `Row`: the word of an instruction selects the
instruction's own row of spec/opcode_table.json (30_encoding.md R182). -/

namespace Sys2Proof

theorem Enc.rType_mask (f7 : BitVec 7) (rs2 rs1 : RegIdx) (f3 : BitVec 3) (rd : RegIdx) (op : BitVec 7) :
    Enc.rType f7 rs2 rs1 f3 rd op &&& 0xFE00707F#32 = Enc.rType f7 0#5 0#5 f3 0#5 op := by
  have h : f7 ++ rs2 ++ rs1 ++ f3 ++ rd ++ op &&&
      (BitVec.allOnes 7 ++ 0#5 ++ 0#5 ++ BitVec.allOnes 3 ++ 0#5 ++ BitVec.allOnes 7) =
      f7 ++ 0#5 ++ 0#5 ++ f3 ++ 0#5 ++ op := by
    simp only [BitVec.and_append, BitVec.and_allOnes, BitVec.and_zero]
  exact h

theorem Enc.rType_maskLow (f7 : BitVec 7) (rs2 rs1 : RegIdx) (f3 : BitVec 3) (rd : RegIdx) (op : BitVec 7) :
    Enc.rType f7 rs2 rs1 f3 rd op &&& 0x0000707F#32 = Enc.rType 0#7 0#5 0#5 f3 0#5 op := by
  have h : f7 ++ rs2 ++ rs1 ++ f3 ++ rd ++ op &&&
      (0#7 ++ 0#5 ++ 0#5 ++ BitVec.allOnes 3 ++ 0#5 ++ BitVec.allOnes 7) =
      0#7 ++ 0#5 ++ 0#5 ++ f3 ++ 0#5 ++ op := by
    simp only [BitVec.and_append, BitVec.and_allOnes, BitVec.and_zero]
  exact h

theorem Enc.iType_mask (imm : BitVec 12) (rs1 : RegIdx) (f3 : BitVec 3) (rd : RegIdx) (op : BitVec 7) :
    Enc.iType imm rs1 f3 rd op &&& 0x0000707F#32 = Enc.iType 0#12 0#5 f3 0#5 op := by
  have h : imm ++ rs1 ++ f3 ++ rd ++ op &&&
      (0#12 ++ 0#5 ++ BitVec.allOnes 3 ++ 0#5 ++ BitVec.allOnes 7) =
      0#12 ++ 0#5 ++ f3 ++ 0#5 ++ op := by
    simp only [BitVec.and_append, BitVec.and_allOnes, BitVec.and_zero]
  exact h

theorem Enc.iShift64_mask (f6 shamt : BitVec 6) (rs1 : RegIdx) (f3 : BitVec 3) (rd : RegIdx) (op : BitVec 7) :
    Enc.iShift64 f6 shamt rs1 f3 rd op &&& 0xFC00707F#32 = Enc.iShift64 f6 0#6 0#5 f3 0#5 op := by
  have h : f6 ++ shamt ++ rs1 ++ f3 ++ rd ++ op &&&
      (BitVec.allOnes 6 ++ 0#6 ++ 0#5 ++ BitVec.allOnes 3 ++ 0#5 ++ BitVec.allOnes 7) =
      f6 ++ 0#6 ++ 0#5 ++ f3 ++ 0#5 ++ op := by
    simp only [BitVec.and_append, BitVec.and_allOnes, BitVec.and_zero]
  exact h

theorem Enc.uType_mask (imm20 : BitVec 20) (rd : RegIdx) (op : BitVec 7) :
    Enc.uType imm20 rd op &&& 0x0000007F#32 = Enc.uType 0#20 0#5 op := by
  have h : imm20 ++ rd ++ op &&&
      (0#20 ++ 0#5 ++ BitVec.allOnes 7) =
      0#20 ++ 0#5 ++ op := by
    simp only [BitVec.and_append, BitVec.and_allOnes, BitVec.and_zero]
  exact h

theorem Enc.aType_mask (f5 : BitVec 5) (aq rl : Bool) (rs2 rs1 : RegIdx) (f3 : BitVec 3) (rd : RegIdx) (op : BitVec 7) :
    Enc.aType f5 aq rl rs2 rs1 f3 rd op &&& 0xF800707F#32 = Enc.rType (f5 ++ 0#1 ++ 0#1) 0#5 0#5 f3 0#5 op := by
  have h : f5 ++ BitVec.ofBool aq ++ BitVec.ofBool rl ++ rs2 ++ rs1 ++ f3 ++ rd ++ op &&&
      (BitVec.allOnes 5 ++ 0#1 ++ 0#1 ++ 0#5 ++ 0#5 ++ BitVec.allOnes 3 ++ 0#5 ++ BitVec.allOnes 7) =
      f5 ++ 0#1 ++ 0#1 ++ 0#5 ++ 0#5 ++ f3 ++ 0#5 ++ op := by
    simp only [BitVec.and_append, BitVec.and_allOnes, BitVec.and_zero]
  exact h

end Sys2Proof

namespace Sys2Proof.Laws.Row

/-- The word of `i` has the fixed bits of `i`'s row. -/
def Statement (i : Instr) : Prop := encode i &&& i.row.2 = i.row.1

theorem add (rd rs1 rs2 : RegIdx) : Statement (.add rd rs1 rs2) :=
  (Enc.rType_mask _ _ _ _ _ _).trans rfl
theorem sub (rd rs1 rs2 : RegIdx) : Statement (.sub rd rs1 rs2) :=
  (Enc.rType_mask _ _ _ _ _ _).trans rfl
theorem sll (rd rs1 rs2 : RegIdx) : Statement (.sll rd rs1 rs2) :=
  (Enc.rType_mask _ _ _ _ _ _).trans rfl
theorem slt (rd rs1 rs2 : RegIdx) : Statement (.slt rd rs1 rs2) :=
  (Enc.rType_mask _ _ _ _ _ _).trans rfl
theorem sltu (rd rs1 rs2 : RegIdx) : Statement (.sltu rd rs1 rs2) :=
  (Enc.rType_mask _ _ _ _ _ _).trans rfl
theorem xor (rd rs1 rs2 : RegIdx) : Statement (.xor rd rs1 rs2) :=
  (Enc.rType_mask _ _ _ _ _ _).trans rfl
theorem srl (rd rs1 rs2 : RegIdx) : Statement (.srl rd rs1 rs2) :=
  (Enc.rType_mask _ _ _ _ _ _).trans rfl
theorem sra (rd rs1 rs2 : RegIdx) : Statement (.sra rd rs1 rs2) :=
  (Enc.rType_mask _ _ _ _ _ _).trans rfl
theorem or (rd rs1 rs2 : RegIdx) : Statement (.or rd rs1 rs2) :=
  (Enc.rType_mask _ _ _ _ _ _).trans rfl
theorem and (rd rs1 rs2 : RegIdx) : Statement (.and rd rs1 rs2) :=
  (Enc.rType_mask _ _ _ _ _ _).trans rfl
theorem mul (rd rs1 rs2 : RegIdx) : Statement (.mul rd rs1 rs2) :=
  (Enc.rType_mask _ _ _ _ _ _).trans rfl
theorem mulh (rd rs1 rs2 : RegIdx) : Statement (.mulh rd rs1 rs2) :=
  (Enc.rType_mask _ _ _ _ _ _).trans rfl
theorem mulhsu (rd rs1 rs2 : RegIdx) : Statement (.mulhsu rd rs1 rs2) :=
  (Enc.rType_mask _ _ _ _ _ _).trans rfl
theorem mulhu (rd rs1 rs2 : RegIdx) : Statement (.mulhu rd rs1 rs2) :=
  (Enc.rType_mask _ _ _ _ _ _).trans rfl
theorem div (rd rs1 rs2 : RegIdx) : Statement (.div rd rs1 rs2) :=
  (Enc.rType_mask _ _ _ _ _ _).trans rfl
theorem divu (rd rs1 rs2 : RegIdx) : Statement (.divu rd rs1 rs2) :=
  (Enc.rType_mask _ _ _ _ _ _).trans rfl
theorem rem (rd rs1 rs2 : RegIdx) : Statement (.rem rd rs1 rs2) :=
  (Enc.rType_mask _ _ _ _ _ _).trans rfl
theorem remu (rd rs1 rs2 : RegIdx) : Statement (.remu rd rs1 rs2) :=
  (Enc.rType_mask _ _ _ _ _ _).trans rfl
theorem addw (rd rs1 rs2 : RegIdx) : Statement (.addw rd rs1 rs2) :=
  (Enc.rType_mask _ _ _ _ _ _).trans rfl
theorem subw (rd rs1 rs2 : RegIdx) : Statement (.subw rd rs1 rs2) :=
  (Enc.rType_mask _ _ _ _ _ _).trans rfl
theorem sllw (rd rs1 rs2 : RegIdx) : Statement (.sllw rd rs1 rs2) :=
  (Enc.rType_mask _ _ _ _ _ _).trans rfl
theorem srlw (rd rs1 rs2 : RegIdx) : Statement (.srlw rd rs1 rs2) :=
  (Enc.rType_mask _ _ _ _ _ _).trans rfl
theorem sraw (rd rs1 rs2 : RegIdx) : Statement (.sraw rd rs1 rs2) :=
  (Enc.rType_mask _ _ _ _ _ _).trans rfl
theorem mulw (rd rs1 rs2 : RegIdx) : Statement (.mulw rd rs1 rs2) :=
  (Enc.rType_mask _ _ _ _ _ _).trans rfl
theorem divw (rd rs1 rs2 : RegIdx) : Statement (.divw rd rs1 rs2) :=
  (Enc.rType_mask _ _ _ _ _ _).trans rfl
theorem divuw (rd rs1 rs2 : RegIdx) : Statement (.divuw rd rs1 rs2) :=
  (Enc.rType_mask _ _ _ _ _ _).trans rfl
theorem remw (rd rs1 rs2 : RegIdx) : Statement (.remw rd rs1 rs2) :=
  (Enc.rType_mask _ _ _ _ _ _).trans rfl
theorem remuw (rd rs1 rs2 : RegIdx) : Statement (.remuw rd rs1 rs2) :=
  (Enc.rType_mask _ _ _ _ _ _).trans rfl
theorem addi (rd rs1 : RegIdx) (imm : BitVec 12) : Statement (.addi rd rs1 imm) :=
  (Enc.iType_mask _ _ _ _ _).trans rfl
theorem slti (rd rs1 : RegIdx) (imm : BitVec 12) : Statement (.slti rd rs1 imm) :=
  (Enc.iType_mask _ _ _ _ _).trans rfl
theorem sltiu (rd rs1 : RegIdx) (imm : BitVec 12) : Statement (.sltiu rd rs1 imm) :=
  (Enc.iType_mask _ _ _ _ _).trans rfl
theorem xori (rd rs1 : RegIdx) (imm : BitVec 12) : Statement (.xori rd rs1 imm) :=
  (Enc.iType_mask _ _ _ _ _).trans rfl
theorem ori (rd rs1 : RegIdx) (imm : BitVec 12) : Statement (.ori rd rs1 imm) :=
  (Enc.iType_mask _ _ _ _ _).trans rfl
theorem andi (rd rs1 : RegIdx) (imm : BitVec 12) : Statement (.andi rd rs1 imm) :=
  (Enc.iType_mask _ _ _ _ _).trans rfl
theorem slli (rd rs1 : RegIdx) (shamt : BitVec 6) : Statement (.slli rd rs1 shamt) :=
  (Enc.iShift64_mask _ _ _ _ _ _).trans rfl
theorem srli (rd rs1 : RegIdx) (shamt : BitVec 6) : Statement (.srli rd rs1 shamt) :=
  (Enc.iShift64_mask _ _ _ _ _ _).trans rfl
theorem srai (rd rs1 : RegIdx) (shamt : BitVec 6) : Statement (.srai rd rs1 shamt) :=
  (Enc.iShift64_mask _ _ _ _ _ _).trans rfl
theorem addiw (rd rs1 : RegIdx) (imm : BitVec 12) : Statement (.addiw rd rs1 imm) :=
  (Enc.iType_mask _ _ _ _ _).trans rfl
theorem slliw (rd rs1 : RegIdx) (shamt : BitVec 5) : Statement (.slliw rd rs1 shamt) :=
  (Enc.rType_mask _ _ _ _ _ _).trans rfl
theorem srliw (rd rs1 : RegIdx) (shamt : BitVec 5) : Statement (.srliw rd rs1 shamt) :=
  (Enc.rType_mask _ _ _ _ _ _).trans rfl
theorem sraiw (rd rs1 : RegIdx) (shamt : BitVec 5) : Statement (.sraiw rd rs1 shamt) :=
  (Enc.rType_mask _ _ _ _ _ _).trans rfl
theorem lui (rd : RegIdx) (imm20 : BitVec 20) : Statement (.lui rd imm20) :=
  (Enc.uType_mask _ _ _).trans rfl
theorem auipc (rd : RegIdx) (imm20 : BitVec 20) : Statement (.auipc rd imm20) :=
  (Enc.uType_mask _ _ _).trans rfl
theorem jal (rd : RegIdx) (offset : BitVec 21) : Statement (.jal rd offset) :=
  (Enc.uType_mask _ _ _).trans rfl
theorem jalr (rd rs1 : RegIdx) (imm : BitVec 12) : Statement (.jalr rd rs1 imm) :=
  (Enc.iType_mask _ _ _ _ _).trans rfl
theorem beq (rs1 rs2 : RegIdx) (offset : BitVec 13) : Statement (.beq rs1 rs2 offset) :=
  (congrArg (· &&& _) (Enc.bType_eq _ _ _ _ _)).trans ((Enc.rType_maskLow _ _ _ _ _ _).trans rfl)
theorem bne (rs1 rs2 : RegIdx) (offset : BitVec 13) : Statement (.bne rs1 rs2 offset) :=
  (congrArg (· &&& _) (Enc.bType_eq _ _ _ _ _)).trans ((Enc.rType_maskLow _ _ _ _ _ _).trans rfl)
theorem blt (rs1 rs2 : RegIdx) (offset : BitVec 13) : Statement (.blt rs1 rs2 offset) :=
  (congrArg (· &&& _) (Enc.bType_eq _ _ _ _ _)).trans ((Enc.rType_maskLow _ _ _ _ _ _).trans rfl)
theorem bge (rs1 rs2 : RegIdx) (offset : BitVec 13) : Statement (.bge rs1 rs2 offset) :=
  (congrArg (· &&& _) (Enc.bType_eq _ _ _ _ _)).trans ((Enc.rType_maskLow _ _ _ _ _ _).trans rfl)
theorem bltu (rs1 rs2 : RegIdx) (offset : BitVec 13) : Statement (.bltu rs1 rs2 offset) :=
  (congrArg (· &&& _) (Enc.bType_eq _ _ _ _ _)).trans ((Enc.rType_maskLow _ _ _ _ _ _).trans rfl)
theorem bgeu (rs1 rs2 : RegIdx) (offset : BitVec 13) : Statement (.bgeu rs1 rs2 offset) :=
  (congrArg (· &&& _) (Enc.bType_eq _ _ _ _ _)).trans ((Enc.rType_maskLow _ _ _ _ _ _).trans rfl)
theorem lb (rd rs1 : RegIdx) (imm : BitVec 12) : Statement (.lb rd rs1 imm) :=
  (Enc.iType_mask _ _ _ _ _).trans rfl
theorem lh (rd rs1 : RegIdx) (imm : BitVec 12) : Statement (.lh rd rs1 imm) :=
  (Enc.iType_mask _ _ _ _ _).trans rfl
theorem lw (rd rs1 : RegIdx) (imm : BitVec 12) : Statement (.lw rd rs1 imm) :=
  (Enc.iType_mask _ _ _ _ _).trans rfl
theorem ld (rd rs1 : RegIdx) (imm : BitVec 12) : Statement (.ld rd rs1 imm) :=
  (Enc.iType_mask _ _ _ _ _).trans rfl
theorem lbu (rd rs1 : RegIdx) (imm : BitVec 12) : Statement (.lbu rd rs1 imm) :=
  (Enc.iType_mask _ _ _ _ _).trans rfl
theorem lhu (rd rs1 : RegIdx) (imm : BitVec 12) : Statement (.lhu rd rs1 imm) :=
  (Enc.iType_mask _ _ _ _ _).trans rfl
theorem lwu (rd rs1 : RegIdx) (imm : BitVec 12) : Statement (.lwu rd rs1 imm) :=
  (Enc.iType_mask _ _ _ _ _).trans rfl
theorem sb (rs1 rs2 : RegIdx) (imm : BitVec 12) : Statement (.sb rs1 rs2 imm) :=
  (Enc.rType_maskLow _ _ _ _ _ _).trans rfl
theorem sh (rs1 rs2 : RegIdx) (imm : BitVec 12) : Statement (.sh rs1 rs2 imm) :=
  (Enc.rType_maskLow _ _ _ _ _ _).trans rfl
theorem sw (rs1 rs2 : RegIdx) (imm : BitVec 12) : Statement (.sw rs1 rs2 imm) :=
  (Enc.rType_maskLow _ _ _ _ _ _).trans rfl
theorem sd (rs1 rs2 : RegIdx) (imm : BitVec 12) : Statement (.sd rs1 rs2 imm) :=
  (Enc.rType_maskLow _ _ _ _ _ _).trans rfl
theorem fence (fm pred succ : BitVec 4) (rs1 rd : RegIdx) : Statement (.fence fm pred succ rs1 rd) :=
  (Enc.iType_mask _ _ _ _ _).trans rfl
theorem fenceI (fm pred succ : BitVec 4) (rs1 rd : RegIdx) : Statement (.fenceI fm pred succ rs1 rd) :=
  (Enc.iType_mask _ _ _ _ _).trans rfl
theorem csrrw (rd : RegIdx) (csr : CsrIdx) (rs1 : RegIdx) : Statement (.csrrw rd csr rs1) :=
  (Enc.iType_mask _ _ _ _ _).trans rfl
theorem csrrs (rd : RegIdx) (csr : CsrIdx) (rs1 : RegIdx) : Statement (.csrrs rd csr rs1) :=
  (Enc.iType_mask _ _ _ _ _).trans rfl
theorem csrrc (rd : RegIdx) (csr : CsrIdx) (rs1 : RegIdx) : Statement (.csrrc rd csr rs1) :=
  (Enc.iType_mask _ _ _ _ _).trans rfl
theorem csrrwi (rd : RegIdx) (csr : CsrIdx) (zimm : BitVec 5) : Statement (.csrrwi rd csr zimm) :=
  (Enc.iType_mask _ _ _ _ _).trans rfl
theorem csrrsi (rd : RegIdx) (csr : CsrIdx) (zimm : BitVec 5) : Statement (.csrrsi rd csr zimm) :=
  (Enc.iType_mask _ _ _ _ _).trans rfl
theorem csrrci (rd : RegIdx) (csr : CsrIdx) (zimm : BitVec 5) : Statement (.csrrci rd csr zimm) :=
  (Enc.iType_mask _ _ _ _ _).trans rfl
theorem ecall : Statement .ecall := by unfold Statement; decide
theorem mret : Statement .mret := by unfold Statement; decide
theorem wfi : Statement .wfi := by unfold Statement; decide
theorem amoaddW (aq rl : Bool) (rd rs1 rs2 : RegIdx) : Statement (.amoaddW aq rl rd rs1 rs2) :=
  (Enc.aType_mask _ _ _ _ _ _ _ _).trans rfl
theorem amoxorW (aq rl : Bool) (rd rs1 rs2 : RegIdx) : Statement (.amoxorW aq rl rd rs1 rs2) :=
  (Enc.aType_mask _ _ _ _ _ _ _ _).trans rfl
theorem amoandW (aq rl : Bool) (rd rs1 rs2 : RegIdx) : Statement (.amoandW aq rl rd rs1 rs2) :=
  (Enc.aType_mask _ _ _ _ _ _ _ _).trans rfl
theorem amoorW (aq rl : Bool) (rd rs1 rs2 : RegIdx) : Statement (.amoorW aq rl rd rs1 rs2) :=
  (Enc.aType_mask _ _ _ _ _ _ _ _).trans rfl
theorem amominW (aq rl : Bool) (rd rs1 rs2 : RegIdx) : Statement (.amominW aq rl rd rs1 rs2) :=
  (Enc.aType_mask _ _ _ _ _ _ _ _).trans rfl
theorem amomaxW (aq rl : Bool) (rd rs1 rs2 : RegIdx) : Statement (.amomaxW aq rl rd rs1 rs2) :=
  (Enc.aType_mask _ _ _ _ _ _ _ _).trans rfl
theorem amominuW (aq rl : Bool) (rd rs1 rs2 : RegIdx) : Statement (.amominuW aq rl rd rs1 rs2) :=
  (Enc.aType_mask _ _ _ _ _ _ _ _).trans rfl
theorem amomaxuW (aq rl : Bool) (rd rs1 rs2 : RegIdx) : Statement (.amomaxuW aq rl rd rs1 rs2) :=
  (Enc.aType_mask _ _ _ _ _ _ _ _).trans rfl
theorem amoaddD (aq rl : Bool) (rd rs1 rs2 : RegIdx) : Statement (.amoaddD aq rl rd rs1 rs2) :=
  (Enc.aType_mask _ _ _ _ _ _ _ _).trans rfl
theorem amoxorD (aq rl : Bool) (rd rs1 rs2 : RegIdx) : Statement (.amoxorD aq rl rd rs1 rs2) :=
  (Enc.aType_mask _ _ _ _ _ _ _ _).trans rfl
theorem amoandD (aq rl : Bool) (rd rs1 rs2 : RegIdx) : Statement (.amoandD aq rl rd rs1 rs2) :=
  (Enc.aType_mask _ _ _ _ _ _ _ _).trans rfl
theorem amoorD (aq rl : Bool) (rd rs1 rs2 : RegIdx) : Statement (.amoorD aq rl rd rs1 rs2) :=
  (Enc.aType_mask _ _ _ _ _ _ _ _).trans rfl
theorem amominD (aq rl : Bool) (rd rs1 rs2 : RegIdx) : Statement (.amominD aq rl rd rs1 rs2) :=
  (Enc.aType_mask _ _ _ _ _ _ _ _).trans rfl
theorem amomaxD (aq rl : Bool) (rd rs1 rs2 : RegIdx) : Statement (.amomaxD aq rl rd rs1 rs2) :=
  (Enc.aType_mask _ _ _ _ _ _ _ _).trans rfl
theorem amominuD (aq rl : Bool) (rd rs1 rs2 : RegIdx) : Statement (.amominuD aq rl rd rs1 rs2) :=
  (Enc.aType_mask _ _ _ _ _ _ _ _).trans rfl
theorem amomaxuD (aq rl : Bool) (rd rs1 rs2 : RegIdx) : Statement (.amomaxuD aq rl rd rs1 rs2) :=
  (Enc.aType_mask _ _ _ _ _ _ _ _).trans rfl
theorem lrW (aq rl : Bool) (rd rs1 rs2 : RegIdx) : Statement (.lrW aq rl rd rs1 rs2) :=
  (Enc.aType_mask _ _ _ _ _ _ _ _).trans rfl
theorem lrD (aq rl : Bool) (rd rs1 rs2 : RegIdx) : Statement (.lrD aq rl rd rs1 rs2) :=
  (Enc.aType_mask _ _ _ _ _ _ _ _).trans rfl
theorem scW (aq rl : Bool) (rd rs1 rs2 : RegIdx) : Statement (.scW aq rl rd rs1 rs2) :=
  (Enc.aType_mask _ _ _ _ _ _ _ _).trans rfl
theorem scD (aq rl : Bool) (rd rs1 rs2 : RegIdx) : Statement (.scD aq rl rd rs1 rs2) :=
  (Enc.aType_mask _ _ _ _ _ _ _ _).trans rfl
theorem amoswapW (aq rl : Bool) (rd rs1 rs2 : RegIdx) : Statement (.amoswapW aq rl rd rs1 rs2) :=
  (Enc.aType_mask _ _ _ _ _ _ _ _).trans rfl
theorem amoswapD (aq rl : Bool) (rd rs1 rs2 : RegIdx) : Statement (.amoswapD aq rl rd rs1 rs2) :=
  (Enc.aType_mask _ _ _ _ _ _ _ _).trans rfl

end Sys2Proof.Laws.Row
end

