-- ==== Sys2Proof/Laws/Rows.lean ====
section
/-! SUPPORT. Laws/Rows.lean: a word that has the fixed bits of a row decodes to that row's instruction, row by row
(30_encoding.md R160, R182), and the three full-word patterns. -/

namespace Sys2Proof.Machine

/-- No full-word pattern has an opcode other than SYSTEM, or a funct3 other than 000 (30_encoding.md R160). -/
theorem decodeWord_eq {w : Word32} (h : Enc.opcode w ≠ Opc.system ∨ Enc.funct3 w ≠ 0#3) : decodeWord w = decodeOpcode w := by
  have h1 : w ≠ Opc.mretWord := by rintro rfl; exact h.elim (fun h => h rfl) (fun h => h rfl)
  have h2 : w ≠ Opc.ecallWord := by rintro rfl; exact h.elim (fun h => h rfl) (fun h => h rfl)
  have h3 : w ≠ Opc.wfiWord := by rintro rfl; exact h.elim (fun h => h rfl) (fun h => h rfl)
  rw [decodeWord, if_neg h1, if_neg h2, if_neg h3]

theorem decodeWord_mret : decodeWord Opc.mretWord = some .mret := by decide
theorem decodeWord_ecall : decodeWord Opc.ecallWord = some .ecall := by decide
theorem decodeWord_wfi : decodeWord Opc.wfiWord = some .wfi := by decide

theorem decodeOp_of_opcode {w : Word32} (h : Enc.opcode w = 51#7) : decodeOpcode w = decodeOp w := by unfold decodeOpcode; rw [h]; rfl
theorem decodeOp32_of_opcode {w : Word32} (h : Enc.opcode w = 59#7) : decodeOpcode w = decodeOp32 w := by unfold decodeOpcode; rw [h]; rfl
theorem decodeOpImm_of_opcode {w : Word32} (h : Enc.opcode w = 19#7) : decodeOpcode w = decodeOpImm w := by unfold decodeOpcode; rw [h]; rfl
theorem decodeOpImm32_of_opcode {w : Word32} (h : Enc.opcode w = 27#7) : decodeOpcode w = decodeOpImm32 w := by unfold decodeOpcode; rw [h]; rfl
theorem decodeLoad_of_opcode {w : Word32} (h : Enc.opcode w = 3#7) : decodeOpcode w = decodeLoad w := by unfold decodeOpcode; rw [h]; rfl
theorem decodeStore_of_opcode {w : Word32} (h : Enc.opcode w = 35#7) : decodeOpcode w = decodeStore w := by unfold decodeOpcode; rw [h]; rfl
theorem decodeBranch_of_opcode {w : Word32} (h : Enc.opcode w = 99#7) : decodeOpcode w = decodeBranch w := by unfold decodeOpcode; rw [h]; rfl
theorem decodeMiscMem_of_opcode {w : Word32} (h : Enc.opcode w = 15#7) : decodeOpcode w = decodeMiscMem w := by unfold decodeOpcode; rw [h]; rfl
theorem decodeSystem_of_opcode {w : Word32} (h : Enc.opcode w = 115#7) : decodeOpcode w = decodeSystem w := by unfold decodeOpcode; rw [h]; rfl
theorem decodeJalr_of_opcode {w : Word32} (h : Enc.opcode w = 103#7) : decodeOpcode w = decodeJalr w := by unfold decodeOpcode; rw [h]; rfl
theorem decodeAmo_of_opcode {w : Word32} (h : Enc.opcode w = 47#7) : decodeOpcode w = decodeAmo w := by unfold decodeOpcode; rw [h]; rfl

theorem selects_add : Selects (fun w => .add (Enc.rd w) (Enc.rs1 w) (Enc.rs2 w)) 0x00000033#32 0xFE00707F#32 := by
  intro w h
  have ho : Enc.opcode w = 51#7 := (Enc.field_of_mask h 0 (l := 7) (by decide)).trans (by decide)
  have h3 : Enc.funct3 w = 0#3 := (Enc.field_of_mask h 12 (l := 3) (by decide)).trans (by decide)
  have h7 : Enc.funct7 w = 0#7 := (Enc.field_of_mask h 25 (l := 7) (by decide)).trans (by decide)
  rw [decodeWord_eq (.inl (by rw [ho]; decide))]
  rw [decodeOp_of_opcode ho]
  unfold decodeOp; rw [h7, h3]; rfl

theorem selects_sub : Selects (fun w => .sub (Enc.rd w) (Enc.rs1 w) (Enc.rs2 w)) 0x40000033#32 0xFE00707F#32 := by
  intro w h
  have ho : Enc.opcode w = 51#7 := (Enc.field_of_mask h 0 (l := 7) (by decide)).trans (by decide)
  have h3 : Enc.funct3 w = 0#3 := (Enc.field_of_mask h 12 (l := 3) (by decide)).trans (by decide)
  have h7 : Enc.funct7 w = 32#7 := (Enc.field_of_mask h 25 (l := 7) (by decide)).trans (by decide)
  rw [decodeWord_eq (.inl (by rw [ho]; decide))]
  rw [decodeOp_of_opcode ho]
  unfold decodeOp; rw [h7, h3]; rfl

theorem selects_sll : Selects (fun w => .sll (Enc.rd w) (Enc.rs1 w) (Enc.rs2 w)) 0x00001033#32 0xFE00707F#32 := by
  intro w h
  have ho : Enc.opcode w = 51#7 := (Enc.field_of_mask h 0 (l := 7) (by decide)).trans (by decide)
  have h3 : Enc.funct3 w = 1#3 := (Enc.field_of_mask h 12 (l := 3) (by decide)).trans (by decide)
  have h7 : Enc.funct7 w = 0#7 := (Enc.field_of_mask h 25 (l := 7) (by decide)).trans (by decide)
  rw [decodeWord_eq (.inl (by rw [ho]; decide))]
  rw [decodeOp_of_opcode ho]
  unfold decodeOp; rw [h7, h3]; rfl

theorem selects_slt : Selects (fun w => .slt (Enc.rd w) (Enc.rs1 w) (Enc.rs2 w)) 0x00002033#32 0xFE00707F#32 := by
  intro w h
  have ho : Enc.opcode w = 51#7 := (Enc.field_of_mask h 0 (l := 7) (by decide)).trans (by decide)
  have h3 : Enc.funct3 w = 2#3 := (Enc.field_of_mask h 12 (l := 3) (by decide)).trans (by decide)
  have h7 : Enc.funct7 w = 0#7 := (Enc.field_of_mask h 25 (l := 7) (by decide)).trans (by decide)
  rw [decodeWord_eq (.inl (by rw [ho]; decide))]
  rw [decodeOp_of_opcode ho]
  unfold decodeOp; rw [h7, h3]; rfl

theorem selects_sltu : Selects (fun w => .sltu (Enc.rd w) (Enc.rs1 w) (Enc.rs2 w)) 0x00003033#32 0xFE00707F#32 := by
  intro w h
  have ho : Enc.opcode w = 51#7 := (Enc.field_of_mask h 0 (l := 7) (by decide)).trans (by decide)
  have h3 : Enc.funct3 w = 3#3 := (Enc.field_of_mask h 12 (l := 3) (by decide)).trans (by decide)
  have h7 : Enc.funct7 w = 0#7 := (Enc.field_of_mask h 25 (l := 7) (by decide)).trans (by decide)
  rw [decodeWord_eq (.inl (by rw [ho]; decide))]
  rw [decodeOp_of_opcode ho]
  unfold decodeOp; rw [h7, h3]; rfl

theorem selects_xor : Selects (fun w => .xor (Enc.rd w) (Enc.rs1 w) (Enc.rs2 w)) 0x00004033#32 0xFE00707F#32 := by
  intro w h
  have ho : Enc.opcode w = 51#7 := (Enc.field_of_mask h 0 (l := 7) (by decide)).trans (by decide)
  have h3 : Enc.funct3 w = 4#3 := (Enc.field_of_mask h 12 (l := 3) (by decide)).trans (by decide)
  have h7 : Enc.funct7 w = 0#7 := (Enc.field_of_mask h 25 (l := 7) (by decide)).trans (by decide)
  rw [decodeWord_eq (.inl (by rw [ho]; decide))]
  rw [decodeOp_of_opcode ho]
  unfold decodeOp; rw [h7, h3]; rfl

theorem selects_srl : Selects (fun w => .srl (Enc.rd w) (Enc.rs1 w) (Enc.rs2 w)) 0x00005033#32 0xFE00707F#32 := by
  intro w h
  have ho : Enc.opcode w = 51#7 := (Enc.field_of_mask h 0 (l := 7) (by decide)).trans (by decide)
  have h3 : Enc.funct3 w = 5#3 := (Enc.field_of_mask h 12 (l := 3) (by decide)).trans (by decide)
  have h7 : Enc.funct7 w = 0#7 := (Enc.field_of_mask h 25 (l := 7) (by decide)).trans (by decide)
  rw [decodeWord_eq (.inl (by rw [ho]; decide))]
  rw [decodeOp_of_opcode ho]
  unfold decodeOp; rw [h7, h3]; rfl

theorem selects_sra : Selects (fun w => .sra (Enc.rd w) (Enc.rs1 w) (Enc.rs2 w)) 0x40005033#32 0xFE00707F#32 := by
  intro w h
  have ho : Enc.opcode w = 51#7 := (Enc.field_of_mask h 0 (l := 7) (by decide)).trans (by decide)
  have h3 : Enc.funct3 w = 5#3 := (Enc.field_of_mask h 12 (l := 3) (by decide)).trans (by decide)
  have h7 : Enc.funct7 w = 32#7 := (Enc.field_of_mask h 25 (l := 7) (by decide)).trans (by decide)
  rw [decodeWord_eq (.inl (by rw [ho]; decide))]
  rw [decodeOp_of_opcode ho]
  unfold decodeOp; rw [h7, h3]; rfl

theorem selects_or : Selects (fun w => .or (Enc.rd w) (Enc.rs1 w) (Enc.rs2 w)) 0x00006033#32 0xFE00707F#32 := by
  intro w h
  have ho : Enc.opcode w = 51#7 := (Enc.field_of_mask h 0 (l := 7) (by decide)).trans (by decide)
  have h3 : Enc.funct3 w = 6#3 := (Enc.field_of_mask h 12 (l := 3) (by decide)).trans (by decide)
  have h7 : Enc.funct7 w = 0#7 := (Enc.field_of_mask h 25 (l := 7) (by decide)).trans (by decide)
  rw [decodeWord_eq (.inl (by rw [ho]; decide))]
  rw [decodeOp_of_opcode ho]
  unfold decodeOp; rw [h7, h3]; rfl

theorem selects_and : Selects (fun w => .and (Enc.rd w) (Enc.rs1 w) (Enc.rs2 w)) 0x00007033#32 0xFE00707F#32 := by
  intro w h
  have ho : Enc.opcode w = 51#7 := (Enc.field_of_mask h 0 (l := 7) (by decide)).trans (by decide)
  have h3 : Enc.funct3 w = 7#3 := (Enc.field_of_mask h 12 (l := 3) (by decide)).trans (by decide)
  have h7 : Enc.funct7 w = 0#7 := (Enc.field_of_mask h 25 (l := 7) (by decide)).trans (by decide)
  rw [decodeWord_eq (.inl (by rw [ho]; decide))]
  rw [decodeOp_of_opcode ho]
  unfold decodeOp; rw [h7, h3]; rfl

theorem selects_mul : Selects (fun w => .mul (Enc.rd w) (Enc.rs1 w) (Enc.rs2 w)) 0x02000033#32 0xFE00707F#32 := by
  intro w h
  have ho : Enc.opcode w = 51#7 := (Enc.field_of_mask h 0 (l := 7) (by decide)).trans (by decide)
  have h3 : Enc.funct3 w = 0#3 := (Enc.field_of_mask h 12 (l := 3) (by decide)).trans (by decide)
  have h7 : Enc.funct7 w = 1#7 := (Enc.field_of_mask h 25 (l := 7) (by decide)).trans (by decide)
  rw [decodeWord_eq (.inl (by rw [ho]; decide))]
  rw [decodeOp_of_opcode ho]
  unfold decodeOp; rw [h7, h3]; rfl

theorem selects_mulh : Selects (fun w => .mulh (Enc.rd w) (Enc.rs1 w) (Enc.rs2 w)) 0x02001033#32 0xFE00707F#32 := by
  intro w h
  have ho : Enc.opcode w = 51#7 := (Enc.field_of_mask h 0 (l := 7) (by decide)).trans (by decide)
  have h3 : Enc.funct3 w = 1#3 := (Enc.field_of_mask h 12 (l := 3) (by decide)).trans (by decide)
  have h7 : Enc.funct7 w = 1#7 := (Enc.field_of_mask h 25 (l := 7) (by decide)).trans (by decide)
  rw [decodeWord_eq (.inl (by rw [ho]; decide))]
  rw [decodeOp_of_opcode ho]
  unfold decodeOp; rw [h7, h3]; rfl

theorem selects_mulhsu : Selects (fun w => .mulhsu (Enc.rd w) (Enc.rs1 w) (Enc.rs2 w)) 0x02002033#32 0xFE00707F#32 := by
  intro w h
  have ho : Enc.opcode w = 51#7 := (Enc.field_of_mask h 0 (l := 7) (by decide)).trans (by decide)
  have h3 : Enc.funct3 w = 2#3 := (Enc.field_of_mask h 12 (l := 3) (by decide)).trans (by decide)
  have h7 : Enc.funct7 w = 1#7 := (Enc.field_of_mask h 25 (l := 7) (by decide)).trans (by decide)
  rw [decodeWord_eq (.inl (by rw [ho]; decide))]
  rw [decodeOp_of_opcode ho]
  unfold decodeOp; rw [h7, h3]; rfl

theorem selects_mulhu : Selects (fun w => .mulhu (Enc.rd w) (Enc.rs1 w) (Enc.rs2 w)) 0x02003033#32 0xFE00707F#32 := by
  intro w h
  have ho : Enc.opcode w = 51#7 := (Enc.field_of_mask h 0 (l := 7) (by decide)).trans (by decide)
  have h3 : Enc.funct3 w = 3#3 := (Enc.field_of_mask h 12 (l := 3) (by decide)).trans (by decide)
  have h7 : Enc.funct7 w = 1#7 := (Enc.field_of_mask h 25 (l := 7) (by decide)).trans (by decide)
  rw [decodeWord_eq (.inl (by rw [ho]; decide))]
  rw [decodeOp_of_opcode ho]
  unfold decodeOp; rw [h7, h3]; rfl

theorem selects_div : Selects (fun w => .div (Enc.rd w) (Enc.rs1 w) (Enc.rs2 w)) 0x02004033#32 0xFE00707F#32 := by
  intro w h
  have ho : Enc.opcode w = 51#7 := (Enc.field_of_mask h 0 (l := 7) (by decide)).trans (by decide)
  have h3 : Enc.funct3 w = 4#3 := (Enc.field_of_mask h 12 (l := 3) (by decide)).trans (by decide)
  have h7 : Enc.funct7 w = 1#7 := (Enc.field_of_mask h 25 (l := 7) (by decide)).trans (by decide)
  rw [decodeWord_eq (.inl (by rw [ho]; decide))]
  rw [decodeOp_of_opcode ho]
  unfold decodeOp; rw [h7, h3]; rfl

theorem selects_divu : Selects (fun w => .divu (Enc.rd w) (Enc.rs1 w) (Enc.rs2 w)) 0x02005033#32 0xFE00707F#32 := by
  intro w h
  have ho : Enc.opcode w = 51#7 := (Enc.field_of_mask h 0 (l := 7) (by decide)).trans (by decide)
  have h3 : Enc.funct3 w = 5#3 := (Enc.field_of_mask h 12 (l := 3) (by decide)).trans (by decide)
  have h7 : Enc.funct7 w = 1#7 := (Enc.field_of_mask h 25 (l := 7) (by decide)).trans (by decide)
  rw [decodeWord_eq (.inl (by rw [ho]; decide))]
  rw [decodeOp_of_opcode ho]
  unfold decodeOp; rw [h7, h3]; rfl

theorem selects_rem : Selects (fun w => .rem (Enc.rd w) (Enc.rs1 w) (Enc.rs2 w)) 0x02006033#32 0xFE00707F#32 := by
  intro w h
  have ho : Enc.opcode w = 51#7 := (Enc.field_of_mask h 0 (l := 7) (by decide)).trans (by decide)
  have h3 : Enc.funct3 w = 6#3 := (Enc.field_of_mask h 12 (l := 3) (by decide)).trans (by decide)
  have h7 : Enc.funct7 w = 1#7 := (Enc.field_of_mask h 25 (l := 7) (by decide)).trans (by decide)
  rw [decodeWord_eq (.inl (by rw [ho]; decide))]
  rw [decodeOp_of_opcode ho]
  unfold decodeOp; rw [h7, h3]; rfl

theorem selects_remu : Selects (fun w => .remu (Enc.rd w) (Enc.rs1 w) (Enc.rs2 w)) 0x02007033#32 0xFE00707F#32 := by
  intro w h
  have ho : Enc.opcode w = 51#7 := (Enc.field_of_mask h 0 (l := 7) (by decide)).trans (by decide)
  have h3 : Enc.funct3 w = 7#3 := (Enc.field_of_mask h 12 (l := 3) (by decide)).trans (by decide)
  have h7 : Enc.funct7 w = 1#7 := (Enc.field_of_mask h 25 (l := 7) (by decide)).trans (by decide)
  rw [decodeWord_eq (.inl (by rw [ho]; decide))]
  rw [decodeOp_of_opcode ho]
  unfold decodeOp; rw [h7, h3]; rfl

theorem selects_addw : Selects (fun w => .addw (Enc.rd w) (Enc.rs1 w) (Enc.rs2 w)) 0x0000003B#32 0xFE00707F#32 := by
  intro w h
  have ho : Enc.opcode w = 59#7 := (Enc.field_of_mask h 0 (l := 7) (by decide)).trans (by decide)
  have h3 : Enc.funct3 w = 0#3 := (Enc.field_of_mask h 12 (l := 3) (by decide)).trans (by decide)
  have h7 : Enc.funct7 w = 0#7 := (Enc.field_of_mask h 25 (l := 7) (by decide)).trans (by decide)
  rw [decodeWord_eq (.inl (by rw [ho]; decide))]
  rw [decodeOp32_of_opcode ho]
  unfold decodeOp32; rw [h7, h3]; rfl

theorem selects_subw : Selects (fun w => .subw (Enc.rd w) (Enc.rs1 w) (Enc.rs2 w)) 0x4000003B#32 0xFE00707F#32 := by
  intro w h
  have ho : Enc.opcode w = 59#7 := (Enc.field_of_mask h 0 (l := 7) (by decide)).trans (by decide)
  have h3 : Enc.funct3 w = 0#3 := (Enc.field_of_mask h 12 (l := 3) (by decide)).trans (by decide)
  have h7 : Enc.funct7 w = 32#7 := (Enc.field_of_mask h 25 (l := 7) (by decide)).trans (by decide)
  rw [decodeWord_eq (.inl (by rw [ho]; decide))]
  rw [decodeOp32_of_opcode ho]
  unfold decodeOp32; rw [h7, h3]; rfl

theorem selects_sllw : Selects (fun w => .sllw (Enc.rd w) (Enc.rs1 w) (Enc.rs2 w)) 0x0000103B#32 0xFE00707F#32 := by
  intro w h
  have ho : Enc.opcode w = 59#7 := (Enc.field_of_mask h 0 (l := 7) (by decide)).trans (by decide)
  have h3 : Enc.funct3 w = 1#3 := (Enc.field_of_mask h 12 (l := 3) (by decide)).trans (by decide)
  have h7 : Enc.funct7 w = 0#7 := (Enc.field_of_mask h 25 (l := 7) (by decide)).trans (by decide)
  rw [decodeWord_eq (.inl (by rw [ho]; decide))]
  rw [decodeOp32_of_opcode ho]
  unfold decodeOp32; rw [h7, h3]; rfl

theorem selects_srlw : Selects (fun w => .srlw (Enc.rd w) (Enc.rs1 w) (Enc.rs2 w)) 0x0000503B#32 0xFE00707F#32 := by
  intro w h
  have ho : Enc.opcode w = 59#7 := (Enc.field_of_mask h 0 (l := 7) (by decide)).trans (by decide)
  have h3 : Enc.funct3 w = 5#3 := (Enc.field_of_mask h 12 (l := 3) (by decide)).trans (by decide)
  have h7 : Enc.funct7 w = 0#7 := (Enc.field_of_mask h 25 (l := 7) (by decide)).trans (by decide)
  rw [decodeWord_eq (.inl (by rw [ho]; decide))]
  rw [decodeOp32_of_opcode ho]
  unfold decodeOp32; rw [h7, h3]; rfl

theorem selects_sraw : Selects (fun w => .sraw (Enc.rd w) (Enc.rs1 w) (Enc.rs2 w)) 0x4000503B#32 0xFE00707F#32 := by
  intro w h
  have ho : Enc.opcode w = 59#7 := (Enc.field_of_mask h 0 (l := 7) (by decide)).trans (by decide)
  have h3 : Enc.funct3 w = 5#3 := (Enc.field_of_mask h 12 (l := 3) (by decide)).trans (by decide)
  have h7 : Enc.funct7 w = 32#7 := (Enc.field_of_mask h 25 (l := 7) (by decide)).trans (by decide)
  rw [decodeWord_eq (.inl (by rw [ho]; decide))]
  rw [decodeOp32_of_opcode ho]
  unfold decodeOp32; rw [h7, h3]; rfl

theorem selects_mulw : Selects (fun w => .mulw (Enc.rd w) (Enc.rs1 w) (Enc.rs2 w)) 0x0200003B#32 0xFE00707F#32 := by
  intro w h
  have ho : Enc.opcode w = 59#7 := (Enc.field_of_mask h 0 (l := 7) (by decide)).trans (by decide)
  have h3 : Enc.funct3 w = 0#3 := (Enc.field_of_mask h 12 (l := 3) (by decide)).trans (by decide)
  have h7 : Enc.funct7 w = 1#7 := (Enc.field_of_mask h 25 (l := 7) (by decide)).trans (by decide)
  rw [decodeWord_eq (.inl (by rw [ho]; decide))]
  rw [decodeOp32_of_opcode ho]
  unfold decodeOp32; rw [h7, h3]; rfl

theorem selects_divw : Selects (fun w => .divw (Enc.rd w) (Enc.rs1 w) (Enc.rs2 w)) 0x0200403B#32 0xFE00707F#32 := by
  intro w h
  have ho : Enc.opcode w = 59#7 := (Enc.field_of_mask h 0 (l := 7) (by decide)).trans (by decide)
  have h3 : Enc.funct3 w = 4#3 := (Enc.field_of_mask h 12 (l := 3) (by decide)).trans (by decide)
  have h7 : Enc.funct7 w = 1#7 := (Enc.field_of_mask h 25 (l := 7) (by decide)).trans (by decide)
  rw [decodeWord_eq (.inl (by rw [ho]; decide))]
  rw [decodeOp32_of_opcode ho]
  unfold decodeOp32; rw [h7, h3]; rfl

theorem selects_divuw : Selects (fun w => .divuw (Enc.rd w) (Enc.rs1 w) (Enc.rs2 w)) 0x0200503B#32 0xFE00707F#32 := by
  intro w h
  have ho : Enc.opcode w = 59#7 := (Enc.field_of_mask h 0 (l := 7) (by decide)).trans (by decide)
  have h3 : Enc.funct3 w = 5#3 := (Enc.field_of_mask h 12 (l := 3) (by decide)).trans (by decide)
  have h7 : Enc.funct7 w = 1#7 := (Enc.field_of_mask h 25 (l := 7) (by decide)).trans (by decide)
  rw [decodeWord_eq (.inl (by rw [ho]; decide))]
  rw [decodeOp32_of_opcode ho]
  unfold decodeOp32; rw [h7, h3]; rfl

theorem selects_remw : Selects (fun w => .remw (Enc.rd w) (Enc.rs1 w) (Enc.rs2 w)) 0x0200603B#32 0xFE00707F#32 := by
  intro w h
  have ho : Enc.opcode w = 59#7 := (Enc.field_of_mask h 0 (l := 7) (by decide)).trans (by decide)
  have h3 : Enc.funct3 w = 6#3 := (Enc.field_of_mask h 12 (l := 3) (by decide)).trans (by decide)
  have h7 : Enc.funct7 w = 1#7 := (Enc.field_of_mask h 25 (l := 7) (by decide)).trans (by decide)
  rw [decodeWord_eq (.inl (by rw [ho]; decide))]
  rw [decodeOp32_of_opcode ho]
  unfold decodeOp32; rw [h7, h3]; rfl

theorem selects_remuw : Selects (fun w => .remuw (Enc.rd w) (Enc.rs1 w) (Enc.rs2 w)) 0x0200703B#32 0xFE00707F#32 := by
  intro w h
  have ho : Enc.opcode w = 59#7 := (Enc.field_of_mask h 0 (l := 7) (by decide)).trans (by decide)
  have h3 : Enc.funct3 w = 7#3 := (Enc.field_of_mask h 12 (l := 3) (by decide)).trans (by decide)
  have h7 : Enc.funct7 w = 1#7 := (Enc.field_of_mask h 25 (l := 7) (by decide)).trans (by decide)
  rw [decodeWord_eq (.inl (by rw [ho]; decide))]
  rw [decodeOp32_of_opcode ho]
  unfold decodeOp32; rw [h7, h3]; rfl

theorem selects_addi : Selects (fun w => .addi (Enc.rd w) (Enc.rs1 w) (Enc.immI w)) 0x00000013#32 0x0000707F#32 := by
  intro w h
  have ho : Enc.opcode w = 19#7 := (Enc.field_of_mask h 0 (l := 7) (by decide)).trans (by decide)
  have h3 : Enc.funct3 w = 0#3 := (Enc.field_of_mask h 12 (l := 3) (by decide)).trans (by decide)
  rw [decodeWord_eq (.inl (by rw [ho]; decide))]
  rw [decodeOpImm_of_opcode ho]
  unfold decodeOpImm; rw [h3]; rfl

theorem selects_slti : Selects (fun w => .slti (Enc.rd w) (Enc.rs1 w) (Enc.immI w)) 0x00002013#32 0x0000707F#32 := by
  intro w h
  have ho : Enc.opcode w = 19#7 := (Enc.field_of_mask h 0 (l := 7) (by decide)).trans (by decide)
  have h3 : Enc.funct3 w = 2#3 := (Enc.field_of_mask h 12 (l := 3) (by decide)).trans (by decide)
  rw [decodeWord_eq (.inl (by rw [ho]; decide))]
  rw [decodeOpImm_of_opcode ho]
  unfold decodeOpImm; rw [h3]; rfl

theorem selects_sltiu : Selects (fun w => .sltiu (Enc.rd w) (Enc.rs1 w) (Enc.immI w)) 0x00003013#32 0x0000707F#32 := by
  intro w h
  have ho : Enc.opcode w = 19#7 := (Enc.field_of_mask h 0 (l := 7) (by decide)).trans (by decide)
  have h3 : Enc.funct3 w = 3#3 := (Enc.field_of_mask h 12 (l := 3) (by decide)).trans (by decide)
  rw [decodeWord_eq (.inl (by rw [ho]; decide))]
  rw [decodeOpImm_of_opcode ho]
  unfold decodeOpImm; rw [h3]; rfl

theorem selects_xori : Selects (fun w => .xori (Enc.rd w) (Enc.rs1 w) (Enc.immI w)) 0x00004013#32 0x0000707F#32 := by
  intro w h
  have ho : Enc.opcode w = 19#7 := (Enc.field_of_mask h 0 (l := 7) (by decide)).trans (by decide)
  have h3 : Enc.funct3 w = 4#3 := (Enc.field_of_mask h 12 (l := 3) (by decide)).trans (by decide)
  rw [decodeWord_eq (.inl (by rw [ho]; decide))]
  rw [decodeOpImm_of_opcode ho]
  unfold decodeOpImm; rw [h3]; rfl

theorem selects_ori : Selects (fun w => .ori (Enc.rd w) (Enc.rs1 w) (Enc.immI w)) 0x00006013#32 0x0000707F#32 := by
  intro w h
  have ho : Enc.opcode w = 19#7 := (Enc.field_of_mask h 0 (l := 7) (by decide)).trans (by decide)
  have h3 : Enc.funct3 w = 6#3 := (Enc.field_of_mask h 12 (l := 3) (by decide)).trans (by decide)
  rw [decodeWord_eq (.inl (by rw [ho]; decide))]
  rw [decodeOpImm_of_opcode ho]
  unfold decodeOpImm; rw [h3]; rfl

theorem selects_andi : Selects (fun w => .andi (Enc.rd w) (Enc.rs1 w) (Enc.immI w)) 0x00007013#32 0x0000707F#32 := by
  intro w h
  have ho : Enc.opcode w = 19#7 := (Enc.field_of_mask h 0 (l := 7) (by decide)).trans (by decide)
  have h3 : Enc.funct3 w = 7#3 := (Enc.field_of_mask h 12 (l := 3) (by decide)).trans (by decide)
  rw [decodeWord_eq (.inl (by rw [ho]; decide))]
  rw [decodeOpImm_of_opcode ho]
  unfold decodeOpImm; rw [h3]; rfl

theorem selects_slli : Selects (fun w => .slli (Enc.rd w) (Enc.rs1 w) (Enc.shamt6 w)) 0x00001013#32 0xFC00707F#32 := by
  intro w h
  have ho : Enc.opcode w = 19#7 := (Enc.field_of_mask h 0 (l := 7) (by decide)).trans (by decide)
  have h3 : Enc.funct3 w = 1#3 := (Enc.field_of_mask h 12 (l := 3) (by decide)).trans (by decide)
  have h6 : Enc.funct6 w = 0#6 := (Enc.field_of_mask h 26 (l := 6) (by decide)).trans (by decide)
  rw [decodeWord_eq (.inl (by rw [ho]; decide))]
  rw [decodeOpImm_of_opcode ho]
  have hd : decodeOpImm w = decodeShift64 w := by unfold decodeOpImm; rw [h3]; rfl
  rw [hd]; unfold decodeShift64; rw [h6, h3]; rfl

theorem selects_srli : Selects (fun w => .srli (Enc.rd w) (Enc.rs1 w) (Enc.shamt6 w)) 0x00005013#32 0xFC00707F#32 := by
  intro w h
  have ho : Enc.opcode w = 19#7 := (Enc.field_of_mask h 0 (l := 7) (by decide)).trans (by decide)
  have h3 : Enc.funct3 w = 5#3 := (Enc.field_of_mask h 12 (l := 3) (by decide)).trans (by decide)
  have h6 : Enc.funct6 w = 0#6 := (Enc.field_of_mask h 26 (l := 6) (by decide)).trans (by decide)
  rw [decodeWord_eq (.inl (by rw [ho]; decide))]
  rw [decodeOpImm_of_opcode ho]
  have hd : decodeOpImm w = decodeShift64 w := by unfold decodeOpImm; rw [h3]; rfl
  rw [hd]; unfold decodeShift64; rw [h6, h3]; rfl

theorem selects_srai : Selects (fun w => .srai (Enc.rd w) (Enc.rs1 w) (Enc.shamt6 w)) 0x40005013#32 0xFC00707F#32 := by
  intro w h
  have ho : Enc.opcode w = 19#7 := (Enc.field_of_mask h 0 (l := 7) (by decide)).trans (by decide)
  have h3 : Enc.funct3 w = 5#3 := (Enc.field_of_mask h 12 (l := 3) (by decide)).trans (by decide)
  have h6 : Enc.funct6 w = 16#6 := (Enc.field_of_mask h 26 (l := 6) (by decide)).trans (by decide)
  rw [decodeWord_eq (.inl (by rw [ho]; decide))]
  rw [decodeOpImm_of_opcode ho]
  have hd : decodeOpImm w = decodeShift64 w := by unfold decodeOpImm; rw [h3]; rfl
  rw [hd]; unfold decodeShift64; rw [h6, h3]; rfl

theorem selects_addiw : Selects (fun w => .addiw (Enc.rd w) (Enc.rs1 w) (Enc.immI w)) 0x0000001B#32 0x0000707F#32 := by
  intro w h
  have ho : Enc.opcode w = 27#7 := (Enc.field_of_mask h 0 (l := 7) (by decide)).trans (by decide)
  have h3 : Enc.funct3 w = 0#3 := (Enc.field_of_mask h 12 (l := 3) (by decide)).trans (by decide)
  rw [decodeWord_eq (.inl (by rw [ho]; decide))]
  rw [decodeOpImm32_of_opcode ho]
  unfold decodeOpImm32; rw [h3]; rfl

theorem selects_slliw : Selects (fun w => .slliw (Enc.rd w) (Enc.rs1 w) (Enc.rs2 w)) 0x0000101B#32 0xFE00707F#32 := by
  intro w h
  have ho : Enc.opcode w = 27#7 := (Enc.field_of_mask h 0 (l := 7) (by decide)).trans (by decide)
  have h3 : Enc.funct3 w = 1#3 := (Enc.field_of_mask h 12 (l := 3) (by decide)).trans (by decide)
  have h7 : Enc.funct7 w = 0#7 := (Enc.field_of_mask h 25 (l := 7) (by decide)).trans (by decide)
  rw [decodeWord_eq (.inl (by rw [ho]; decide))]
  rw [decodeOpImm32_of_opcode ho]
  have hd : decodeOpImm32 w = decodeShift32 w := by unfold decodeOpImm32; rw [h3]; rfl
  rw [hd]; unfold decodeShift32; rw [h7, h3]; rfl

theorem selects_srliw : Selects (fun w => .srliw (Enc.rd w) (Enc.rs1 w) (Enc.rs2 w)) 0x0000501B#32 0xFE00707F#32 := by
  intro w h
  have ho : Enc.opcode w = 27#7 := (Enc.field_of_mask h 0 (l := 7) (by decide)).trans (by decide)
  have h3 : Enc.funct3 w = 5#3 := (Enc.field_of_mask h 12 (l := 3) (by decide)).trans (by decide)
  have h7 : Enc.funct7 w = 0#7 := (Enc.field_of_mask h 25 (l := 7) (by decide)).trans (by decide)
  rw [decodeWord_eq (.inl (by rw [ho]; decide))]
  rw [decodeOpImm32_of_opcode ho]
  have hd : decodeOpImm32 w = decodeShift32 w := by unfold decodeOpImm32; rw [h3]; rfl
  rw [hd]; unfold decodeShift32; rw [h7, h3]; rfl

theorem selects_sraiw : Selects (fun w => .sraiw (Enc.rd w) (Enc.rs1 w) (Enc.rs2 w)) 0x4000501B#32 0xFE00707F#32 := by
  intro w h
  have ho : Enc.opcode w = 27#7 := (Enc.field_of_mask h 0 (l := 7) (by decide)).trans (by decide)
  have h3 : Enc.funct3 w = 5#3 := (Enc.field_of_mask h 12 (l := 3) (by decide)).trans (by decide)
  have h7 : Enc.funct7 w = 32#7 := (Enc.field_of_mask h 25 (l := 7) (by decide)).trans (by decide)
  rw [decodeWord_eq (.inl (by rw [ho]; decide))]
  rw [decodeOpImm32_of_opcode ho]
  have hd : decodeOpImm32 w = decodeShift32 w := by unfold decodeOpImm32; rw [h3]; rfl
  rw [hd]; unfold decodeShift32; rw [h7, h3]; rfl

theorem selects_lui : Selects (fun w => .lui (Enc.rd w) (Enc.imm20 w)) 0x00000037#32 0x0000007F#32 := by
  intro w h
  have ho : Enc.opcode w = 55#7 := (Enc.field_of_mask h 0 (l := 7) (by decide)).trans (by decide)
  rw [decodeWord_eq (.inl (by rw [ho]; decide))]
  unfold decodeOpcode; rw [ho]; rfl

theorem selects_auipc : Selects (fun w => .auipc (Enc.rd w) (Enc.imm20 w)) 0x00000017#32 0x0000007F#32 := by
  intro w h
  have ho : Enc.opcode w = 23#7 := (Enc.field_of_mask h 0 (l := 7) (by decide)).trans (by decide)
  rw [decodeWord_eq (.inl (by rw [ho]; decide))]
  unfold decodeOpcode; rw [ho]; rfl

theorem selects_jal : Selects (fun w => .jal (Enc.rd w) (Enc.immJ w)) 0x0000006F#32 0x0000007F#32 := by
  intro w h
  have ho : Enc.opcode w = 111#7 := (Enc.field_of_mask h 0 (l := 7) (by decide)).trans (by decide)
  rw [decodeWord_eq (.inl (by rw [ho]; decide))]
  unfold decodeOpcode; rw [ho]; rfl

theorem selects_jalr : Selects (fun w => .jalr (Enc.rd w) (Enc.rs1 w) (Enc.immI w)) 0x00000067#32 0x0000707F#32 := by
  intro w h
  have ho : Enc.opcode w = 103#7 := (Enc.field_of_mask h 0 (l := 7) (by decide)).trans (by decide)
  have h3 : Enc.funct3 w = 0#3 := (Enc.field_of_mask h 12 (l := 3) (by decide)).trans (by decide)
  rw [decodeWord_eq (.inl (by rw [ho]; decide))]
  rw [decodeJalr_of_opcode ho]
  unfold decodeJalr; rw [h3]; rfl

theorem selects_beq : Selects (fun w => .beq (Enc.rs1 w) (Enc.rs2 w) (Enc.immB w)) 0x00000063#32 0x0000707F#32 := by
  intro w h
  have ho : Enc.opcode w = 99#7 := (Enc.field_of_mask h 0 (l := 7) (by decide)).trans (by decide)
  have h3 : Enc.funct3 w = 0#3 := (Enc.field_of_mask h 12 (l := 3) (by decide)).trans (by decide)
  rw [decodeWord_eq (.inl (by rw [ho]; decide))]
  rw [decodeBranch_of_opcode ho]
  unfold decodeBranch; rw [h3]; rfl

theorem selects_bne : Selects (fun w => .bne (Enc.rs1 w) (Enc.rs2 w) (Enc.immB w)) 0x00001063#32 0x0000707F#32 := by
  intro w h
  have ho : Enc.opcode w = 99#7 := (Enc.field_of_mask h 0 (l := 7) (by decide)).trans (by decide)
  have h3 : Enc.funct3 w = 1#3 := (Enc.field_of_mask h 12 (l := 3) (by decide)).trans (by decide)
  rw [decodeWord_eq (.inl (by rw [ho]; decide))]
  rw [decodeBranch_of_opcode ho]
  unfold decodeBranch; rw [h3]; rfl

theorem selects_blt : Selects (fun w => .blt (Enc.rs1 w) (Enc.rs2 w) (Enc.immB w)) 0x00004063#32 0x0000707F#32 := by
  intro w h
  have ho : Enc.opcode w = 99#7 := (Enc.field_of_mask h 0 (l := 7) (by decide)).trans (by decide)
  have h3 : Enc.funct3 w = 4#3 := (Enc.field_of_mask h 12 (l := 3) (by decide)).trans (by decide)
  rw [decodeWord_eq (.inl (by rw [ho]; decide))]
  rw [decodeBranch_of_opcode ho]
  unfold decodeBranch; rw [h3]; rfl

theorem selects_bge : Selects (fun w => .bge (Enc.rs1 w) (Enc.rs2 w) (Enc.immB w)) 0x00005063#32 0x0000707F#32 := by
  intro w h
  have ho : Enc.opcode w = 99#7 := (Enc.field_of_mask h 0 (l := 7) (by decide)).trans (by decide)
  have h3 : Enc.funct3 w = 5#3 := (Enc.field_of_mask h 12 (l := 3) (by decide)).trans (by decide)
  rw [decodeWord_eq (.inl (by rw [ho]; decide))]
  rw [decodeBranch_of_opcode ho]
  unfold decodeBranch; rw [h3]; rfl

theorem selects_bltu : Selects (fun w => .bltu (Enc.rs1 w) (Enc.rs2 w) (Enc.immB w)) 0x00006063#32 0x0000707F#32 := by
  intro w h
  have ho : Enc.opcode w = 99#7 := (Enc.field_of_mask h 0 (l := 7) (by decide)).trans (by decide)
  have h3 : Enc.funct3 w = 6#3 := (Enc.field_of_mask h 12 (l := 3) (by decide)).trans (by decide)
  rw [decodeWord_eq (.inl (by rw [ho]; decide))]
  rw [decodeBranch_of_opcode ho]
  unfold decodeBranch; rw [h3]; rfl

theorem selects_bgeu : Selects (fun w => .bgeu (Enc.rs1 w) (Enc.rs2 w) (Enc.immB w)) 0x00007063#32 0x0000707F#32 := by
  intro w h
  have ho : Enc.opcode w = 99#7 := (Enc.field_of_mask h 0 (l := 7) (by decide)).trans (by decide)
  have h3 : Enc.funct3 w = 7#3 := (Enc.field_of_mask h 12 (l := 3) (by decide)).trans (by decide)
  rw [decodeWord_eq (.inl (by rw [ho]; decide))]
  rw [decodeBranch_of_opcode ho]
  unfold decodeBranch; rw [h3]; rfl

theorem selects_lb : Selects (fun w => .lb (Enc.rd w) (Enc.rs1 w) (Enc.immI w)) 0x00000003#32 0x0000707F#32 := by
  intro w h
  have ho : Enc.opcode w = 3#7 := (Enc.field_of_mask h 0 (l := 7) (by decide)).trans (by decide)
  have h3 : Enc.funct3 w = 0#3 := (Enc.field_of_mask h 12 (l := 3) (by decide)).trans (by decide)
  rw [decodeWord_eq (.inl (by rw [ho]; decide))]
  rw [decodeLoad_of_opcode ho]
  unfold decodeLoad; rw [h3]; rfl

theorem selects_lh : Selects (fun w => .lh (Enc.rd w) (Enc.rs1 w) (Enc.immI w)) 0x00001003#32 0x0000707F#32 := by
  intro w h
  have ho : Enc.opcode w = 3#7 := (Enc.field_of_mask h 0 (l := 7) (by decide)).trans (by decide)
  have h3 : Enc.funct3 w = 1#3 := (Enc.field_of_mask h 12 (l := 3) (by decide)).trans (by decide)
  rw [decodeWord_eq (.inl (by rw [ho]; decide))]
  rw [decodeLoad_of_opcode ho]
  unfold decodeLoad; rw [h3]; rfl

theorem selects_lw : Selects (fun w => .lw (Enc.rd w) (Enc.rs1 w) (Enc.immI w)) 0x00002003#32 0x0000707F#32 := by
  intro w h
  have ho : Enc.opcode w = 3#7 := (Enc.field_of_mask h 0 (l := 7) (by decide)).trans (by decide)
  have h3 : Enc.funct3 w = 2#3 := (Enc.field_of_mask h 12 (l := 3) (by decide)).trans (by decide)
  rw [decodeWord_eq (.inl (by rw [ho]; decide))]
  rw [decodeLoad_of_opcode ho]
  unfold decodeLoad; rw [h3]; rfl

theorem selects_ld : Selects (fun w => .ld (Enc.rd w) (Enc.rs1 w) (Enc.immI w)) 0x00003003#32 0x0000707F#32 := by
  intro w h
  have ho : Enc.opcode w = 3#7 := (Enc.field_of_mask h 0 (l := 7) (by decide)).trans (by decide)
  have h3 : Enc.funct3 w = 3#3 := (Enc.field_of_mask h 12 (l := 3) (by decide)).trans (by decide)
  rw [decodeWord_eq (.inl (by rw [ho]; decide))]
  rw [decodeLoad_of_opcode ho]
  unfold decodeLoad; rw [h3]; rfl

theorem selects_lbu : Selects (fun w => .lbu (Enc.rd w) (Enc.rs1 w) (Enc.immI w)) 0x00004003#32 0x0000707F#32 := by
  intro w h
  have ho : Enc.opcode w = 3#7 := (Enc.field_of_mask h 0 (l := 7) (by decide)).trans (by decide)
  have h3 : Enc.funct3 w = 4#3 := (Enc.field_of_mask h 12 (l := 3) (by decide)).trans (by decide)
  rw [decodeWord_eq (.inl (by rw [ho]; decide))]
  rw [decodeLoad_of_opcode ho]
  unfold decodeLoad; rw [h3]; rfl

theorem selects_lhu : Selects (fun w => .lhu (Enc.rd w) (Enc.rs1 w) (Enc.immI w)) 0x00005003#32 0x0000707F#32 := by
  intro w h
  have ho : Enc.opcode w = 3#7 := (Enc.field_of_mask h 0 (l := 7) (by decide)).trans (by decide)
  have h3 : Enc.funct3 w = 5#3 := (Enc.field_of_mask h 12 (l := 3) (by decide)).trans (by decide)
  rw [decodeWord_eq (.inl (by rw [ho]; decide))]
  rw [decodeLoad_of_opcode ho]
  unfold decodeLoad; rw [h3]; rfl

theorem selects_lwu : Selects (fun w => .lwu (Enc.rd w) (Enc.rs1 w) (Enc.immI w)) 0x00006003#32 0x0000707F#32 := by
  intro w h
  have ho : Enc.opcode w = 3#7 := (Enc.field_of_mask h 0 (l := 7) (by decide)).trans (by decide)
  have h3 : Enc.funct3 w = 6#3 := (Enc.field_of_mask h 12 (l := 3) (by decide)).trans (by decide)
  rw [decodeWord_eq (.inl (by rw [ho]; decide))]
  rw [decodeLoad_of_opcode ho]
  unfold decodeLoad; rw [h3]; rfl

theorem selects_sb : Selects (fun w => .sb (Enc.rs1 w) (Enc.rs2 w) (Enc.immS w)) 0x00000023#32 0x0000707F#32 := by
  intro w h
  have ho : Enc.opcode w = 35#7 := (Enc.field_of_mask h 0 (l := 7) (by decide)).trans (by decide)
  have h3 : Enc.funct3 w = 0#3 := (Enc.field_of_mask h 12 (l := 3) (by decide)).trans (by decide)
  rw [decodeWord_eq (.inl (by rw [ho]; decide))]
  rw [decodeStore_of_opcode ho]
  unfold decodeStore; rw [h3]; rfl

theorem selects_sh : Selects (fun w => .sh (Enc.rs1 w) (Enc.rs2 w) (Enc.immS w)) 0x00001023#32 0x0000707F#32 := by
  intro w h
  have ho : Enc.opcode w = 35#7 := (Enc.field_of_mask h 0 (l := 7) (by decide)).trans (by decide)
  have h3 : Enc.funct3 w = 1#3 := (Enc.field_of_mask h 12 (l := 3) (by decide)).trans (by decide)
  rw [decodeWord_eq (.inl (by rw [ho]; decide))]
  rw [decodeStore_of_opcode ho]
  unfold decodeStore; rw [h3]; rfl

theorem selects_sw : Selects (fun w => .sw (Enc.rs1 w) (Enc.rs2 w) (Enc.immS w)) 0x00002023#32 0x0000707F#32 := by
  intro w h
  have ho : Enc.opcode w = 35#7 := (Enc.field_of_mask h 0 (l := 7) (by decide)).trans (by decide)
  have h3 : Enc.funct3 w = 2#3 := (Enc.field_of_mask h 12 (l := 3) (by decide)).trans (by decide)
  rw [decodeWord_eq (.inl (by rw [ho]; decide))]
  rw [decodeStore_of_opcode ho]
  unfold decodeStore; rw [h3]; rfl

theorem selects_sd : Selects (fun w => .sd (Enc.rs1 w) (Enc.rs2 w) (Enc.immS w)) 0x00003023#32 0x0000707F#32 := by
  intro w h
  have ho : Enc.opcode w = 35#7 := (Enc.field_of_mask h 0 (l := 7) (by decide)).trans (by decide)
  have h3 : Enc.funct3 w = 3#3 := (Enc.field_of_mask h 12 (l := 3) (by decide)).trans (by decide)
  rw [decodeWord_eq (.inl (by rw [ho]; decide))]
  rw [decodeStore_of_opcode ho]
  unfold decodeStore; rw [h3]; rfl

theorem selects_fence : Selects (fun w => .fence (Enc.fm w) (Enc.pred w) (Enc.succ w) (Enc.rs1 w) (Enc.rd w)) 0x0000000F#32 0x0000707F#32 := by
  intro w h
  have ho : Enc.opcode w = 15#7 := (Enc.field_of_mask h 0 (l := 7) (by decide)).trans (by decide)
  have h3 : Enc.funct3 w = 0#3 := (Enc.field_of_mask h 12 (l := 3) (by decide)).trans (by decide)
  rw [decodeWord_eq (.inl (by rw [ho]; decide))]
  rw [decodeMiscMem_of_opcode ho]
  unfold decodeMiscMem; rw [h3]; rfl

theorem selects_fenceI : Selects (fun w => .fenceI (Enc.fm w) (Enc.pred w) (Enc.succ w) (Enc.rs1 w) (Enc.rd w)) 0x0000100F#32 0x0000707F#32 := by
  intro w h
  have ho : Enc.opcode w = 15#7 := (Enc.field_of_mask h 0 (l := 7) (by decide)).trans (by decide)
  have h3 : Enc.funct3 w = 1#3 := (Enc.field_of_mask h 12 (l := 3) (by decide)).trans (by decide)
  rw [decodeWord_eq (.inl (by rw [ho]; decide))]
  rw [decodeMiscMem_of_opcode ho]
  unfold decodeMiscMem; rw [h3]; rfl

theorem selects_csrrw : Selects (fun w => .csrrw (Enc.rd w) (Enc.csr w) (Enc.rs1 w)) 0x00001073#32 0x0000707F#32 := by
  intro w h
  have ho : Enc.opcode w = 115#7 := (Enc.field_of_mask h 0 (l := 7) (by decide)).trans (by decide)
  have h3 : Enc.funct3 w = 1#3 := (Enc.field_of_mask h 12 (l := 3) (by decide)).trans (by decide)
  rw [decodeWord_eq (.inr (by rw [h3]; decide))]
  rw [decodeSystem_of_opcode ho]
  unfold decodeSystem; rw [h3]; rfl

theorem selects_csrrs : Selects (fun w => .csrrs (Enc.rd w) (Enc.csr w) (Enc.rs1 w)) 0x00002073#32 0x0000707F#32 := by
  intro w h
  have ho : Enc.opcode w = 115#7 := (Enc.field_of_mask h 0 (l := 7) (by decide)).trans (by decide)
  have h3 : Enc.funct3 w = 2#3 := (Enc.field_of_mask h 12 (l := 3) (by decide)).trans (by decide)
  rw [decodeWord_eq (.inr (by rw [h3]; decide))]
  rw [decodeSystem_of_opcode ho]
  unfold decodeSystem; rw [h3]; rfl

theorem selects_csrrc : Selects (fun w => .csrrc (Enc.rd w) (Enc.csr w) (Enc.rs1 w)) 0x00003073#32 0x0000707F#32 := by
  intro w h
  have ho : Enc.opcode w = 115#7 := (Enc.field_of_mask h 0 (l := 7) (by decide)).trans (by decide)
  have h3 : Enc.funct3 w = 3#3 := (Enc.field_of_mask h 12 (l := 3) (by decide)).trans (by decide)
  rw [decodeWord_eq (.inr (by rw [h3]; decide))]
  rw [decodeSystem_of_opcode ho]
  unfold decodeSystem; rw [h3]; rfl

theorem selects_csrrwi : Selects (fun w => .csrrwi (Enc.rd w) (Enc.csr w) (Enc.rs1 w)) 0x00005073#32 0x0000707F#32 := by
  intro w h
  have ho : Enc.opcode w = 115#7 := (Enc.field_of_mask h 0 (l := 7) (by decide)).trans (by decide)
  have h3 : Enc.funct3 w = 5#3 := (Enc.field_of_mask h 12 (l := 3) (by decide)).trans (by decide)
  rw [decodeWord_eq (.inr (by rw [h3]; decide))]
  rw [decodeSystem_of_opcode ho]
  unfold decodeSystem; rw [h3]; rfl

theorem selects_csrrsi : Selects (fun w => .csrrsi (Enc.rd w) (Enc.csr w) (Enc.rs1 w)) 0x00006073#32 0x0000707F#32 := by
  intro w h
  have ho : Enc.opcode w = 115#7 := (Enc.field_of_mask h 0 (l := 7) (by decide)).trans (by decide)
  have h3 : Enc.funct3 w = 6#3 := (Enc.field_of_mask h 12 (l := 3) (by decide)).trans (by decide)
  rw [decodeWord_eq (.inr (by rw [h3]; decide))]
  rw [decodeSystem_of_opcode ho]
  unfold decodeSystem; rw [h3]; rfl

theorem selects_csrrci : Selects (fun w => .csrrci (Enc.rd w) (Enc.csr w) (Enc.rs1 w)) 0x00007073#32 0x0000707F#32 := by
  intro w h
  have ho : Enc.opcode w = 115#7 := (Enc.field_of_mask h 0 (l := 7) (by decide)).trans (by decide)
  have h3 : Enc.funct3 w = 7#3 := (Enc.field_of_mask h 12 (l := 3) (by decide)).trans (by decide)
  rw [decodeWord_eq (.inr (by rw [h3]; decide))]
  rw [decodeSystem_of_opcode ho]
  unfold decodeSystem; rw [h3]; rfl

theorem selects_amoaddW : Selects (fun w => .amoaddW (Enc.aq w) (Enc.rl w) (Enc.rd w) (Enc.rs1 w) (Enc.rs2 w)) 0x0000202F#32 0xF800707F#32 := by
  intro w h
  have ho : Enc.opcode w = 47#7 := (Enc.field_of_mask h 0 (l := 7) (by decide)).trans (by decide)
  have h3 : Enc.funct3 w = 2#3 := (Enc.field_of_mask h 12 (l := 3) (by decide)).trans (by decide)
  have h5 : Enc.funct5 w = 0#5 := (Enc.field_of_mask h 27 (l := 5) (by decide)).trans (by decide)
  rw [decodeWord_eq (.inl (by rw [ho]; decide))]
  rw [decodeAmo_of_opcode ho]
  unfold decodeAmo; rw [h5, h3]; rfl

theorem selects_amoxorW : Selects (fun w => .amoxorW (Enc.aq w) (Enc.rl w) (Enc.rd w) (Enc.rs1 w) (Enc.rs2 w)) 0x2000202F#32 0xF800707F#32 := by
  intro w h
  have ho : Enc.opcode w = 47#7 := (Enc.field_of_mask h 0 (l := 7) (by decide)).trans (by decide)
  have h3 : Enc.funct3 w = 2#3 := (Enc.field_of_mask h 12 (l := 3) (by decide)).trans (by decide)
  have h5 : Enc.funct5 w = 4#5 := (Enc.field_of_mask h 27 (l := 5) (by decide)).trans (by decide)
  rw [decodeWord_eq (.inl (by rw [ho]; decide))]
  rw [decodeAmo_of_opcode ho]
  unfold decodeAmo; rw [h5, h3]; rfl

theorem selects_amoandW : Selects (fun w => .amoandW (Enc.aq w) (Enc.rl w) (Enc.rd w) (Enc.rs1 w) (Enc.rs2 w)) 0x6000202F#32 0xF800707F#32 := by
  intro w h
  have ho : Enc.opcode w = 47#7 := (Enc.field_of_mask h 0 (l := 7) (by decide)).trans (by decide)
  have h3 : Enc.funct3 w = 2#3 := (Enc.field_of_mask h 12 (l := 3) (by decide)).trans (by decide)
  have h5 : Enc.funct5 w = 12#5 := (Enc.field_of_mask h 27 (l := 5) (by decide)).trans (by decide)
  rw [decodeWord_eq (.inl (by rw [ho]; decide))]
  rw [decodeAmo_of_opcode ho]
  unfold decodeAmo; rw [h5, h3]; rfl

theorem selects_amoorW : Selects (fun w => .amoorW (Enc.aq w) (Enc.rl w) (Enc.rd w) (Enc.rs1 w) (Enc.rs2 w)) 0x4000202F#32 0xF800707F#32 := by
  intro w h
  have ho : Enc.opcode w = 47#7 := (Enc.field_of_mask h 0 (l := 7) (by decide)).trans (by decide)
  have h3 : Enc.funct3 w = 2#3 := (Enc.field_of_mask h 12 (l := 3) (by decide)).trans (by decide)
  have h5 : Enc.funct5 w = 8#5 := (Enc.field_of_mask h 27 (l := 5) (by decide)).trans (by decide)
  rw [decodeWord_eq (.inl (by rw [ho]; decide))]
  rw [decodeAmo_of_opcode ho]
  unfold decodeAmo; rw [h5, h3]; rfl

theorem selects_amominW : Selects (fun w => .amominW (Enc.aq w) (Enc.rl w) (Enc.rd w) (Enc.rs1 w) (Enc.rs2 w)) 0x8000202F#32 0xF800707F#32 := by
  intro w h
  have ho : Enc.opcode w = 47#7 := (Enc.field_of_mask h 0 (l := 7) (by decide)).trans (by decide)
  have h3 : Enc.funct3 w = 2#3 := (Enc.field_of_mask h 12 (l := 3) (by decide)).trans (by decide)
  have h5 : Enc.funct5 w = 16#5 := (Enc.field_of_mask h 27 (l := 5) (by decide)).trans (by decide)
  rw [decodeWord_eq (.inl (by rw [ho]; decide))]
  rw [decodeAmo_of_opcode ho]
  unfold decodeAmo; rw [h5, h3]; rfl

theorem selects_amomaxW : Selects (fun w => .amomaxW (Enc.aq w) (Enc.rl w) (Enc.rd w) (Enc.rs1 w) (Enc.rs2 w)) 0xA000202F#32 0xF800707F#32 := by
  intro w h
  have ho : Enc.opcode w = 47#7 := (Enc.field_of_mask h 0 (l := 7) (by decide)).trans (by decide)
  have h3 : Enc.funct3 w = 2#3 := (Enc.field_of_mask h 12 (l := 3) (by decide)).trans (by decide)
  have h5 : Enc.funct5 w = 20#5 := (Enc.field_of_mask h 27 (l := 5) (by decide)).trans (by decide)
  rw [decodeWord_eq (.inl (by rw [ho]; decide))]
  rw [decodeAmo_of_opcode ho]
  unfold decodeAmo; rw [h5, h3]; rfl

theorem selects_amominuW : Selects (fun w => .amominuW (Enc.aq w) (Enc.rl w) (Enc.rd w) (Enc.rs1 w) (Enc.rs2 w)) 0xC000202F#32 0xF800707F#32 := by
  intro w h
  have ho : Enc.opcode w = 47#7 := (Enc.field_of_mask h 0 (l := 7) (by decide)).trans (by decide)
  have h3 : Enc.funct3 w = 2#3 := (Enc.field_of_mask h 12 (l := 3) (by decide)).trans (by decide)
  have h5 : Enc.funct5 w = 24#5 := (Enc.field_of_mask h 27 (l := 5) (by decide)).trans (by decide)
  rw [decodeWord_eq (.inl (by rw [ho]; decide))]
  rw [decodeAmo_of_opcode ho]
  unfold decodeAmo; rw [h5, h3]; rfl

theorem selects_amomaxuW : Selects (fun w => .amomaxuW (Enc.aq w) (Enc.rl w) (Enc.rd w) (Enc.rs1 w) (Enc.rs2 w)) 0xE000202F#32 0xF800707F#32 := by
  intro w h
  have ho : Enc.opcode w = 47#7 := (Enc.field_of_mask h 0 (l := 7) (by decide)).trans (by decide)
  have h3 : Enc.funct3 w = 2#3 := (Enc.field_of_mask h 12 (l := 3) (by decide)).trans (by decide)
  have h5 : Enc.funct5 w = 28#5 := (Enc.field_of_mask h 27 (l := 5) (by decide)).trans (by decide)
  rw [decodeWord_eq (.inl (by rw [ho]; decide))]
  rw [decodeAmo_of_opcode ho]
  unfold decodeAmo; rw [h5, h3]; rfl

theorem selects_amoaddD : Selects (fun w => .amoaddD (Enc.aq w) (Enc.rl w) (Enc.rd w) (Enc.rs1 w) (Enc.rs2 w)) 0x0000302F#32 0xF800707F#32 := by
  intro w h
  have ho : Enc.opcode w = 47#7 := (Enc.field_of_mask h 0 (l := 7) (by decide)).trans (by decide)
  have h3 : Enc.funct3 w = 3#3 := (Enc.field_of_mask h 12 (l := 3) (by decide)).trans (by decide)
  have h5 : Enc.funct5 w = 0#5 := (Enc.field_of_mask h 27 (l := 5) (by decide)).trans (by decide)
  rw [decodeWord_eq (.inl (by rw [ho]; decide))]
  rw [decodeAmo_of_opcode ho]
  unfold decodeAmo; rw [h5, h3]; rfl

theorem selects_amoxorD : Selects (fun w => .amoxorD (Enc.aq w) (Enc.rl w) (Enc.rd w) (Enc.rs1 w) (Enc.rs2 w)) 0x2000302F#32 0xF800707F#32 := by
  intro w h
  have ho : Enc.opcode w = 47#7 := (Enc.field_of_mask h 0 (l := 7) (by decide)).trans (by decide)
  have h3 : Enc.funct3 w = 3#3 := (Enc.field_of_mask h 12 (l := 3) (by decide)).trans (by decide)
  have h5 : Enc.funct5 w = 4#5 := (Enc.field_of_mask h 27 (l := 5) (by decide)).trans (by decide)
  rw [decodeWord_eq (.inl (by rw [ho]; decide))]
  rw [decodeAmo_of_opcode ho]
  unfold decodeAmo; rw [h5, h3]; rfl

theorem selects_amoandD : Selects (fun w => .amoandD (Enc.aq w) (Enc.rl w) (Enc.rd w) (Enc.rs1 w) (Enc.rs2 w)) 0x6000302F#32 0xF800707F#32 := by
  intro w h
  have ho : Enc.opcode w = 47#7 := (Enc.field_of_mask h 0 (l := 7) (by decide)).trans (by decide)
  have h3 : Enc.funct3 w = 3#3 := (Enc.field_of_mask h 12 (l := 3) (by decide)).trans (by decide)
  have h5 : Enc.funct5 w = 12#5 := (Enc.field_of_mask h 27 (l := 5) (by decide)).trans (by decide)
  rw [decodeWord_eq (.inl (by rw [ho]; decide))]
  rw [decodeAmo_of_opcode ho]
  unfold decodeAmo; rw [h5, h3]; rfl

theorem selects_amoorD : Selects (fun w => .amoorD (Enc.aq w) (Enc.rl w) (Enc.rd w) (Enc.rs1 w) (Enc.rs2 w)) 0x4000302F#32 0xF800707F#32 := by
  intro w h
  have ho : Enc.opcode w = 47#7 := (Enc.field_of_mask h 0 (l := 7) (by decide)).trans (by decide)
  have h3 : Enc.funct3 w = 3#3 := (Enc.field_of_mask h 12 (l := 3) (by decide)).trans (by decide)
  have h5 : Enc.funct5 w = 8#5 := (Enc.field_of_mask h 27 (l := 5) (by decide)).trans (by decide)
  rw [decodeWord_eq (.inl (by rw [ho]; decide))]
  rw [decodeAmo_of_opcode ho]
  unfold decodeAmo; rw [h5, h3]; rfl

theorem selects_amominD : Selects (fun w => .amominD (Enc.aq w) (Enc.rl w) (Enc.rd w) (Enc.rs1 w) (Enc.rs2 w)) 0x8000302F#32 0xF800707F#32 := by
  intro w h
  have ho : Enc.opcode w = 47#7 := (Enc.field_of_mask h 0 (l := 7) (by decide)).trans (by decide)
  have h3 : Enc.funct3 w = 3#3 := (Enc.field_of_mask h 12 (l := 3) (by decide)).trans (by decide)
  have h5 : Enc.funct5 w = 16#5 := (Enc.field_of_mask h 27 (l := 5) (by decide)).trans (by decide)
  rw [decodeWord_eq (.inl (by rw [ho]; decide))]
  rw [decodeAmo_of_opcode ho]
  unfold decodeAmo; rw [h5, h3]; rfl

theorem selects_amomaxD : Selects (fun w => .amomaxD (Enc.aq w) (Enc.rl w) (Enc.rd w) (Enc.rs1 w) (Enc.rs2 w)) 0xA000302F#32 0xF800707F#32 := by
  intro w h
  have ho : Enc.opcode w = 47#7 := (Enc.field_of_mask h 0 (l := 7) (by decide)).trans (by decide)
  have h3 : Enc.funct3 w = 3#3 := (Enc.field_of_mask h 12 (l := 3) (by decide)).trans (by decide)
  have h5 : Enc.funct5 w = 20#5 := (Enc.field_of_mask h 27 (l := 5) (by decide)).trans (by decide)
  rw [decodeWord_eq (.inl (by rw [ho]; decide))]
  rw [decodeAmo_of_opcode ho]
  unfold decodeAmo; rw [h5, h3]; rfl

theorem selects_amominuD : Selects (fun w => .amominuD (Enc.aq w) (Enc.rl w) (Enc.rd w) (Enc.rs1 w) (Enc.rs2 w)) 0xC000302F#32 0xF800707F#32 := by
  intro w h
  have ho : Enc.opcode w = 47#7 := (Enc.field_of_mask h 0 (l := 7) (by decide)).trans (by decide)
  have h3 : Enc.funct3 w = 3#3 := (Enc.field_of_mask h 12 (l := 3) (by decide)).trans (by decide)
  have h5 : Enc.funct5 w = 24#5 := (Enc.field_of_mask h 27 (l := 5) (by decide)).trans (by decide)
  rw [decodeWord_eq (.inl (by rw [ho]; decide))]
  rw [decodeAmo_of_opcode ho]
  unfold decodeAmo; rw [h5, h3]; rfl

theorem selects_amomaxuD : Selects (fun w => .amomaxuD (Enc.aq w) (Enc.rl w) (Enc.rd w) (Enc.rs1 w) (Enc.rs2 w)) 0xE000302F#32 0xF800707F#32 := by
  intro w h
  have ho : Enc.opcode w = 47#7 := (Enc.field_of_mask h 0 (l := 7) (by decide)).trans (by decide)
  have h3 : Enc.funct3 w = 3#3 := (Enc.field_of_mask h 12 (l := 3) (by decide)).trans (by decide)
  have h5 : Enc.funct5 w = 28#5 := (Enc.field_of_mask h 27 (l := 5) (by decide)).trans (by decide)
  rw [decodeWord_eq (.inl (by rw [ho]; decide))]
  rw [decodeAmo_of_opcode ho]
  unfold decodeAmo; rw [h5, h3]; rfl

theorem selects_lrW : Selects (fun w => .lrW (Enc.aq w) (Enc.rl w) (Enc.rd w) (Enc.rs1 w) (Enc.rs2 w)) 0x1000202F#32 0xF800707F#32 := by
  intro w h
  have ho : Enc.opcode w = 47#7 := (Enc.field_of_mask h 0 (l := 7) (by decide)).trans (by decide)
  have h3 : Enc.funct3 w = 2#3 := (Enc.field_of_mask h 12 (l := 3) (by decide)).trans (by decide)
  have h5 : Enc.funct5 w = 2#5 := (Enc.field_of_mask h 27 (l := 5) (by decide)).trans (by decide)
  rw [decodeWord_eq (.inl (by rw [ho]; decide))]
  rw [decodeAmo_of_opcode ho]
  unfold decodeAmo; rw [h5, h3]; rfl

theorem selects_lrD : Selects (fun w => .lrD (Enc.aq w) (Enc.rl w) (Enc.rd w) (Enc.rs1 w) (Enc.rs2 w)) 0x1000302F#32 0xF800707F#32 := by
  intro w h
  have ho : Enc.opcode w = 47#7 := (Enc.field_of_mask h 0 (l := 7) (by decide)).trans (by decide)
  have h3 : Enc.funct3 w = 3#3 := (Enc.field_of_mask h 12 (l := 3) (by decide)).trans (by decide)
  have h5 : Enc.funct5 w = 2#5 := (Enc.field_of_mask h 27 (l := 5) (by decide)).trans (by decide)
  rw [decodeWord_eq (.inl (by rw [ho]; decide))]
  rw [decodeAmo_of_opcode ho]
  unfold decodeAmo; rw [h5, h3]; rfl

theorem selects_scW : Selects (fun w => .scW (Enc.aq w) (Enc.rl w) (Enc.rd w) (Enc.rs1 w) (Enc.rs2 w)) 0x1800202F#32 0xF800707F#32 := by
  intro w h
  have ho : Enc.opcode w = 47#7 := (Enc.field_of_mask h 0 (l := 7) (by decide)).trans (by decide)
  have h3 : Enc.funct3 w = 2#3 := (Enc.field_of_mask h 12 (l := 3) (by decide)).trans (by decide)
  have h5 : Enc.funct5 w = 3#5 := (Enc.field_of_mask h 27 (l := 5) (by decide)).trans (by decide)
  rw [decodeWord_eq (.inl (by rw [ho]; decide))]
  rw [decodeAmo_of_opcode ho]
  unfold decodeAmo; rw [h5, h3]; rfl

theorem selects_scD : Selects (fun w => .scD (Enc.aq w) (Enc.rl w) (Enc.rd w) (Enc.rs1 w) (Enc.rs2 w)) 0x1800302F#32 0xF800707F#32 := by
  intro w h
  have ho : Enc.opcode w = 47#7 := (Enc.field_of_mask h 0 (l := 7) (by decide)).trans (by decide)
  have h3 : Enc.funct3 w = 3#3 := (Enc.field_of_mask h 12 (l := 3) (by decide)).trans (by decide)
  have h5 : Enc.funct5 w = 3#5 := (Enc.field_of_mask h 27 (l := 5) (by decide)).trans (by decide)
  rw [decodeWord_eq (.inl (by rw [ho]; decide))]
  rw [decodeAmo_of_opcode ho]
  unfold decodeAmo; rw [h5, h3]; rfl

theorem selects_amoswapW : Selects (fun w => .amoswapW (Enc.aq w) (Enc.rl w) (Enc.rd w) (Enc.rs1 w) (Enc.rs2 w)) 0x0800202F#32 0xF800707F#32 := by
  intro w h
  have ho : Enc.opcode w = 47#7 := (Enc.field_of_mask h 0 (l := 7) (by decide)).trans (by decide)
  have h3 : Enc.funct3 w = 2#3 := (Enc.field_of_mask h 12 (l := 3) (by decide)).trans (by decide)
  have h5 : Enc.funct5 w = 1#5 := (Enc.field_of_mask h 27 (l := 5) (by decide)).trans (by decide)
  rw [decodeWord_eq (.inl (by rw [ho]; decide))]
  rw [decodeAmo_of_opcode ho]
  unfold decodeAmo; rw [h5, h3]; rfl

theorem selects_amoswapD : Selects (fun w => .amoswapD (Enc.aq w) (Enc.rl w) (Enc.rd w) (Enc.rs1 w) (Enc.rs2 w)) 0x0800302F#32 0xF800707F#32 := by
  intro w h
  have ho : Enc.opcode w = 47#7 := (Enc.field_of_mask h 0 (l := 7) (by decide)).trans (by decide)
  have h3 : Enc.funct3 w = 3#3 := (Enc.field_of_mask h 12 (l := 3) (by decide)).trans (by decide)
  have h5 : Enc.funct5 w = 1#5 := (Enc.field_of_mask h 27 (l := 5) (by decide)).trans (by decide)
  rw [decodeWord_eq (.inl (by rw [ho]; decide))]
  rw [decodeAmo_of_opcode ho]
  unfold decodeAmo; rw [h5, h3]; rfl

end Sys2Proof.Machine
end

