-- ==== Sys2Proof/Tests/Slice0.lean ====
section
/-! SUPPORT. Tests/Slice0.lean: the WellFormed smoke tests, a decode test for every constructor, one or two single steps for every
instruction, and for every obligation with hypotheses a witness that meets them. Expected results come from spec/: the rules'
examples and 95_test_vectors.md. -/

namespace Sys2Proof.Tests

open Sys2Proof Sys2Proof.Machine

/-- A property of every element of a written list, from its evaluation. -/
theorem forall_mem {α : Type} {P : α → Prop} [DecidablePred P] (l : List α) (h : (l.all fun x => decide (P x)) = true) :
    ∀ x ∈ l, P x := by simpa using h

/-! ## WellFormed: what the checks refuse (30_encoding.md R152, R154) -/

theorem test_wf_refuses_odd_branch : (Instr.beq 1#5 2#5 5#13).wf = false ∧ (Instr.bgeu 1#5 2#5 0x1FFF#13).wf = false := by decide
theorem test_wf_refuses_odd_jump : (Instr.jal 1#5 3#21).wf = false ∧ (Instr.jal 0#5 0x1FFFFF#21).wf = false := by decide
theorem test_wf_accepts_even : (Instr.bne 1#5 2#5 0x1FFE#13).wf = true ∧ (Instr.jal 1#5 0x100000#21).wf = true := by decide

/-! ## The small states of the tests: the base state of 95_test_vectors.md with `a1`, `a2` and what a test adds -/

def base (a1 a2 : Word) : State := (State.reset.writeX 11#5 a1).writeX 12#5 a2
def atPc (a : Word) (s : State) : State := { s with pc := a }
def inMode (m : Mode) (s : State) : State := { s with mode := m }
def ramAt (off n v : Nat) (s : State) : State := { s with ram := s.ram.writeLE off n v }
def romAt (off n v : Nat) (s : State) : State := { s with rom := s.rom.writeLE off n v }

/-- One answer: whether it is a next state with the property. -/
def after (r : Result) (p : State → Bool) : Bool :=
  match r with
  | .next t => p t
  | .fault _ => false
  | .refused _ => false

/-- One step of the word. -/
def one (w : Nat) (s : State) (p : State → Bool) : Bool := after (step (s.withFetchWord 32 w)) p


/-! ## Decoding: one word of every row, written field by field (30_encoding.md R145; words of 95_test_vectors.md Part 2 and of the
rules' examples) -/

theorem test_decode_add : decodeWord 0b0000000_01100_01011_000_01010_0110011#32 = some (.add 10#5 11#5 12#5) := by decide
theorem test_decode_sub : decodeWord 0b0100000_01100_01011_000_01010_0110011#32 = some (.sub 10#5 11#5 12#5) := by decide
theorem test_decode_sll : decodeWord 0b0000000_01100_01011_001_01010_0110011#32 = some (.sll 10#5 11#5 12#5) := by decide
theorem test_decode_slt : decodeWord 0b0000000_01100_01011_010_01010_0110011#32 = some (.slt 10#5 11#5 12#5) := by decide
theorem test_decode_sltu : decodeWord 0b0000000_01100_01011_011_01010_0110011#32 = some (.sltu 10#5 11#5 12#5) := by decide
theorem test_decode_xor : decodeWord 0b0000000_01100_01011_100_01010_0110011#32 = some (.xor 10#5 11#5 12#5) := by decide
theorem test_decode_srl : decodeWord 0b0000000_01100_01011_101_01010_0110011#32 = some (.srl 10#5 11#5 12#5) := by decide
theorem test_decode_sra : decodeWord 0b0100000_01100_01011_101_01010_0110011#32 = some (.sra 10#5 11#5 12#5) := by decide
theorem test_decode_or : decodeWord 0b0000000_01100_01011_110_01010_0110011#32 = some (.or 10#5 11#5 12#5) := by decide
theorem test_decode_and : decodeWord 0b0000000_01100_01011_111_01010_0110011#32 = some (.and 10#5 11#5 12#5) := by decide
theorem test_decode_mul : decodeWord 0b0000001_01100_01011_000_01010_0110011#32 = some (.mul 10#5 11#5 12#5) := by decide
theorem test_decode_mulh : decodeWord 0b0000001_01100_01011_001_01010_0110011#32 = some (.mulh 10#5 11#5 12#5) := by decide
theorem test_decode_mulhsu : decodeWord 0b0000001_01100_01011_010_01010_0110011#32 = some (.mulhsu 10#5 11#5 12#5) := by decide
theorem test_decode_mulhu : decodeWord 0b0000001_01100_01011_011_01010_0110011#32 = some (.mulhu 10#5 11#5 12#5) := by decide
theorem test_decode_div : decodeWord 0b0000001_01100_01011_100_01010_0110011#32 = some (.div 10#5 11#5 12#5) := by decide
theorem test_decode_divu : decodeWord 0b0000001_01100_01011_101_01010_0110011#32 = some (.divu 10#5 11#5 12#5) := by decide
theorem test_decode_rem : decodeWord 0b0000001_01100_01011_110_01010_0110011#32 = some (.rem 10#5 11#5 12#5) := by decide
theorem test_decode_remu : decodeWord 0b0000001_01100_01011_111_01010_0110011#32 = some (.remu 10#5 11#5 12#5) := by decide
theorem test_decode_addw : decodeWord 0b0000000_01100_01011_000_01010_0111011#32 = some (.addw 10#5 11#5 12#5) := by decide
theorem test_decode_subw : decodeWord 0b0100000_01100_01011_000_01010_0111011#32 = some (.subw 10#5 11#5 12#5) := by decide
theorem test_decode_sllw : decodeWord 0b0000000_01100_01011_001_01010_0111011#32 = some (.sllw 10#5 11#5 12#5) := by decide
theorem test_decode_srlw : decodeWord 0b0000000_01100_01011_101_01010_0111011#32 = some (.srlw 10#5 11#5 12#5) := by decide
theorem test_decode_sraw : decodeWord 0b0100000_01100_01011_101_01010_0111011#32 = some (.sraw 10#5 11#5 12#5) := by decide
theorem test_decode_mulw : decodeWord 0b0000001_01100_01011_000_01010_0111011#32 = some (.mulw 10#5 11#5 12#5) := by decide
theorem test_decode_divw : decodeWord 0b0000001_01100_01011_100_01010_0111011#32 = some (.divw 10#5 11#5 12#5) := by decide
theorem test_decode_divuw : decodeWord 0b0000001_01100_01011_101_01010_0111011#32 = some (.divuw 10#5 11#5 12#5) := by decide
theorem test_decode_remw : decodeWord 0b0000001_01100_01011_110_01010_0111011#32 = some (.remw 10#5 11#5 12#5) := by decide
theorem test_decode_remuw : decodeWord 0b0000001_01100_01011_111_01010_0111011#32 = some (.remuw 10#5 11#5 12#5) := by decide
theorem test_decode_addi : decodeWord 0b100000000000_01011_000_01010_0010011#32 = some (.addi 10#5 11#5 0x800#12) := by decide
theorem test_decode_slti : decodeWord 0b111111111111_01011_010_01010_0010011#32 = some (.slti 10#5 11#5 0xFFF#12) := by decide
theorem test_decode_sltiu : decodeWord 0b111111111111_01011_011_01010_0010011#32 = some (.sltiu 10#5 11#5 0xFFF#12) := by decide
theorem test_decode_xori : decodeWord 0b111111111111_01011_100_01010_0010011#32 = some (.xori 10#5 11#5 0xFFF#12) := by decide
theorem test_decode_ori : decodeWord 0b100000000000_01011_110_01010_0010011#32 = some (.ori 10#5 11#5 0x800#12) := by decide
theorem test_decode_andi : decodeWord 0b011111111111_01011_111_01010_0010011#32 = some (.andi 10#5 11#5 0x7FF#12) := by decide
theorem test_decode_slli : decodeWord 0b000000_111111_01011_001_01010_0010011#32 = some (.slli 10#5 11#5 63#6) := by decide
theorem test_decode_srli : decodeWord 0b000000_100000_01011_101_01010_0010011#32 = some (.srli 10#5 11#5 32#6) := by decide
theorem test_decode_srai : decodeWord 0b010000_000100_01011_101_01010_0010011#32 = some (.srai 10#5 11#5 4#6) := by decide
theorem test_decode_addiw : decodeWord 0b000000000001_01011_000_01010_0011011#32 = some (.addiw 10#5 11#5 0x1#12) := by decide
theorem test_decode_slliw : decodeWord 0b0000000_00100_01011_001_01010_0011011#32 = some (.slliw 10#5 11#5 4#5) := by decide
theorem test_decode_srliw : decodeWord 0b0000000_00001_01011_101_01010_0011011#32 = some (.srliw 10#5 11#5 1#5) := by decide
theorem test_decode_sraiw : decodeWord 0b0100000_11111_01011_101_01010_0011011#32 = some (.sraiw 10#5 11#5 31#5) := by decide
theorem test_decode_lui : decodeWord 0b00010010001101000101_01010_0110111#32 = some (.lui 10#5 0x12345#20) := by decide
theorem test_decode_auipc : decodeWord 0b01111111111111111111_01010_0010111#32 = some (.auipc 10#5 0x7FFFF#20) := by decide
theorem test_decode_jal : decodeWord 0b0_1111111111_1_11111111_00000_1101111#32 = some (.jal 0#5 0xFFFFE#21) := by decide
theorem test_decode_jalr : decodeWord 0b111111111100_01011_000_00000_1100111#32 = some (.jalr 0#5 11#5 0xFFC#12) := by decide
theorem test_decode_beq : decodeWord 0b0_111111_00000_00000_000_1111_1_1100011#32 = some (.beq 0#5 0#5 0xFFE#13) := by decide
theorem test_decode_bne : decodeWord 0b1_111111_01100_01011_001_1110_1_1100011#32 = some (.bne 11#5 12#5 0x1FFC#13) := by decide
theorem test_decode_blt : decodeWord 0b0_000000_01100_01011_100_1000_0_1100011#32 = some (.blt 11#5 12#5 0x10#13) := by decide
theorem test_decode_bge : decodeWord 0b0_000000_01100_01011_101_1000_0_1100011#32 = some (.bge 11#5 12#5 0x10#13) := by decide
theorem test_decode_bltu : decodeWord 0b0_000000_01100_01011_110_1000_0_1100011#32 = some (.bltu 11#5 12#5 0x10#13) := by decide
theorem test_decode_bgeu : decodeWord 0b1_000000_01100_01011_111_0000_0_1100011#32 = some (.bgeu 11#5 12#5 0x1000#13) := by decide
theorem test_decode_lb : decodeWord 0b000000000000_01011_000_01010_0000011#32 = some (.lb 10#5 11#5 0x0#12) := by decide
theorem test_decode_lh : decodeWord 0b000000000010_01011_001_01010_0000011#32 = some (.lh 10#5 11#5 0x2#12) := by decide
theorem test_decode_lw : decodeWord 0b111111111100_01011_010_01010_0000011#32 = some (.lw 10#5 11#5 0xFFC#12) := by decide
theorem test_decode_ld : decodeWord 0b000000000000_01011_011_01010_0000011#32 = some (.ld 10#5 11#5 0x0#12) := by decide
theorem test_decode_lbu : decodeWord 0b000000000000_01011_100_01010_0000011#32 = some (.lbu 10#5 11#5 0x0#12) := by decide
theorem test_decode_lhu : decodeWord 0b000000000010_01011_101_01010_0000011#32 = some (.lhu 10#5 11#5 0x2#12) := by decide
theorem test_decode_lwu : decodeWord 0b111111111100_01011_110_01010_0000011#32 = some (.lwu 10#5 11#5 0xFFC#12) := by decide
theorem test_decode_sb : decodeWord 0b0000000_01100_01011_000_00000_0100011#32 = some (.sb 11#5 12#5 0x0#12) := by decide
theorem test_decode_sh : decodeWord 0b0000000_01100_01011_001_00010_0100011#32 = some (.sh 11#5 12#5 0x2#12) := by decide
theorem test_decode_sw : decodeWord 0b0000000_01100_01011_010_00000_0100011#32 = some (.sw 11#5 12#5 0x0#12) := by decide
theorem test_decode_sd : decodeWord 0b0000000_01100_01011_011_01000_0100011#32 = some (.sd 11#5 12#5 0x8#12) := by decide
theorem test_decode_fence : decodeWord 0b0000_1111_1111_00000_000_00000_0001111#32 = some (.fence 0#4 15#4 15#4 0#5 0#5) := by decide
theorem test_decode_fenceI : decodeWord 0b0000_0000_0000_00000_001_00000_0001111#32 = some (.fenceI 0#4 0#4 0#4 0#5 0#5) := by decide
theorem test_decode_csrrw : decodeWord 0b001101000000_01011_001_01010_1110011#32 = some (.csrrw 10#5 0x340#12 11#5) := by decide
theorem test_decode_csrrs : decodeWord 0b001101000000_01011_010_01010_1110011#32 = some (.csrrs 10#5 0x340#12 11#5) := by decide
theorem test_decode_csrrc : decodeWord 0b001101000000_01011_011_01010_1110011#32 = some (.csrrc 10#5 0x340#12 11#5) := by decide
theorem test_decode_csrrwi : decodeWord 0b001101000000_11111_101_01010_1110011#32 = some (.csrrwi 10#5 0x340#12 31#5) := by decide
theorem test_decode_csrrsi : decodeWord 0b001101000000_00101_110_01010_1110011#32 = some (.csrrsi 10#5 0x340#12 5#5) := by decide
theorem test_decode_csrrci : decodeWord 0b001101000000_00101_111_01010_1110011#32 = some (.csrrci 10#5 0x340#12 5#5) := by decide
theorem test_decode_ecall : decodeWord 0x00000073#32 = some (.ecall) := by decide
theorem test_decode_mret : decodeWord 0x30200073#32 = some (.mret) := by decide
theorem test_decode_wfi : decodeWord 0x10500073#32 = some (.wfi) := by decide
theorem test_decode_amoaddW : decodeWord 0b00000_0_0_01100_01011_010_01010_0101111#32 = some (.amoaddW false false 10#5 11#5 12#5) := by decide
theorem test_decode_amoxorW : decodeWord 0b00100_0_0_01100_01011_010_01010_0101111#32 = some (.amoxorW false false 10#5 11#5 12#5) := by decide
theorem test_decode_amoandW : decodeWord 0b01100_0_0_01100_01011_010_01010_0101111#32 = some (.amoandW false false 10#5 11#5 12#5) := by decide
theorem test_decode_amoorW : decodeWord 0b01000_0_0_01100_01011_010_01010_0101111#32 = some (.amoorW false false 10#5 11#5 12#5) := by decide
theorem test_decode_amominW : decodeWord 0b10000_0_0_01100_01011_010_01010_0101111#32 = some (.amominW false false 10#5 11#5 12#5) := by decide
theorem test_decode_amomaxW : decodeWord 0b10100_0_0_01100_01011_010_01010_0101111#32 = some (.amomaxW false false 10#5 11#5 12#5) := by decide
theorem test_decode_amominuW : decodeWord 0b11000_0_0_01100_01011_010_01010_0101111#32 = some (.amominuW false false 10#5 11#5 12#5) := by decide
theorem test_decode_amomaxuW : decodeWord 0b11100_0_0_01100_01011_010_01010_0101111#32 = some (.amomaxuW false false 10#5 11#5 12#5) := by decide
theorem test_decode_amoaddD : decodeWord 0b00000_0_0_01100_01011_011_01010_0101111#32 = some (.amoaddD false false 10#5 11#5 12#5) := by decide
theorem test_decode_amoxorD : decodeWord 0b00100_0_0_01100_01011_011_01010_0101111#32 = some (.amoxorD false false 10#5 11#5 12#5) := by decide
theorem test_decode_amoandD : decodeWord 0b01100_0_0_01100_01011_011_01010_0101111#32 = some (.amoandD false false 10#5 11#5 12#5) := by decide
theorem test_decode_amoorD : decodeWord 0b01000_0_0_01100_01011_011_01010_0101111#32 = some (.amoorD false false 10#5 11#5 12#5) := by decide
theorem test_decode_amominD : decodeWord 0b10000_0_0_01100_01011_011_01010_0101111#32 = some (.amominD false false 10#5 11#5 12#5) := by decide
theorem test_decode_amomaxD : decodeWord 0b10100_0_0_01100_01011_011_01010_0101111#32 = some (.amomaxD false false 10#5 11#5 12#5) := by decide
theorem test_decode_amominuD : decodeWord 0b11000_0_0_01100_01011_011_01010_0101111#32 = some (.amominuD false false 10#5 11#5 12#5) := by decide
theorem test_decode_amomaxuD : decodeWord 0b11100_0_0_01100_01011_011_01010_0101111#32 = some (.amomaxuD false false 10#5 11#5 12#5) := by decide
theorem test_decode_lrW : decodeWord 0b00010_0_0_00000_01011_010_01010_0101111#32 = some (.lrW false false 10#5 11#5 0#5) := by decide
theorem test_decode_lrD : decodeWord 0b00010_0_0_00000_01011_011_01010_0101111#32 = some (.lrD false false 10#5 11#5 0#5) := by decide
theorem test_decode_scW : decodeWord 0b00011_0_0_01100_01011_010_01010_0101111#32 = some (.scW false false 10#5 11#5 12#5) := by decide
theorem test_decode_scD : decodeWord 0b00011_0_0_01100_01011_011_01010_0101111#32 = some (.scD false false 10#5 11#5 12#5) := by decide
theorem test_decode_amoswapW : decodeWord 0b00001_0_0_01100_01011_010_01010_0101111#32 = some (.amoswapW false false 10#5 11#5 12#5) := by decide
theorem test_decode_amoswapD : decodeWord 0b00001_0_0_01100_01011_011_01010_0101111#32 = some (.amoswapD false false 10#5 11#5 12#5) := by decide

/-! ## Words that match no row (30_encoding.md R161 to R171; words of 95_test_vectors.md Part 2) -/

theorem test_noRow_1 : ∀ w ∈ [0x40C59533#32, 0x04C58533#32, 0x00C5A53B#32, 0x02C5953B#32], decodeWord w = none := forall_mem _ (by decide)
theorem test_noRow_2 : ∀ w ∈ [0x40359513#32, 0x8035D513#32, 0x0215951B#32, 0x0015A51B#32], decodeWord w = none := forall_mem _ (by decide)
theorem test_noRow_3 : ∀ w ∈ [0x000590E7#32, 0x00C5A463#32, 0x0005F503#32, 0x00C5C023#32], decodeWord w = none := forall_mem _ (by decide)
theorem test_noRow_4 : ∀ w ∈ [0x0000200F#32, 0x00100073#32, 0x10200073#32, 0x12000073#32], decodeWord w = none := forall_mem _ (by decide)
theorem test_noRow_5 : ∀ w ∈ [0x00004073#32, 0x000000F3#32, 0x00C5852F#32, 0xFFFFFFFF#32], decodeWord w = none := forall_mem _ (by decide)
theorem test_noRow_6 : ∀ w ∈ [0x0000007F#32, 0x00000007#32], decodeWord w = none := forall_mem _ (by decide)

/-! ## One step of every instruction (95_test_vectors.md Part 2: the start and end columns; for AMOXOR.D, AMOAND.W, AMOOR.D,
LR.D, SC.W and AMOSWAP.D by hand from 48_amo.md) -/

theorem test_add : one 0x00C58533 (base 0x7FFFFFFFFFFFFFFF#64 0x1#64)
    (fun t => t.readX 10#5 == 0x8000000000000000#64) = true := by decide
theorem test_add_2 : one 0x00B585B3 (base 0x8000000000000000#64 0#64) (fun t => t.readX 11#5 == 0x0#64) = true := by decide
theorem test_sub : one 0x40C58533 (base 0x0#64 0x1#64) (fun t => t.readX 10#5 == 0xFFFFFFFFFFFFFFFF#64) = true := by decide
theorem test_sll : one 0x00C59533 (base 0x1#64 0x3F#64) (fun t => t.readX 10#5 == 0x8000000000000000#64) = true := by decide
theorem test_sll_2 : one 0x00C59533 (base 0x3#64 0xFFFFFFFFFFFFFFC1#64) (fun t => t.readX 10#5 == 0x6#64) = true := by decide
theorem test_slt : one 0x00C5A533 (base 0xFFFFFFFFFFFFFFFF#64 0x1#64) (fun t => t.readX 10#5 == 0x1#64) = true := by decide
theorem test_sltu : one 0x00C5B533 (base 0xFFFFFFFFFFFFFFFF#64 0x1#64) (fun t => t.readX 10#5 == 0x0#64) = true := by decide
theorem test_xor : one 0x00C5C533 (base 0xFF00FF00FF00FF00#64 0xFF00FF00FF00FF0#64)
    (fun t => t.readX 10#5 == 0xF0F0F0F0F0F0F0F0#64) = true := by decide
theorem test_srl : one 0x00C5D533 (base 0x8000000000000000#64 0x3F#64) (fun t => t.readX 10#5 == 0x1#64) = true := by decide
theorem test_sra : one 0x40C5D533 (base 0x8000000000000000#64 0x3F#64)
    (fun t => t.readX 10#5 == 0xFFFFFFFFFFFFFFFF#64) = true := by decide
theorem test_or : one 0x00C5E533 (base 0xF0#64 0xF#64) (fun t => t.readX 10#5 == 0xFF#64) = true := by decide
theorem test_and : one 0x00C5F533 (base 0xFF#64 0xF0#64) (fun t => t.readX 10#5 == 0xF0#64) = true := by decide
theorem test_mul : one 0x02C58533 (base 0xFFFFFFFFFFFFFFFF#64 0xFFFFFFFFFFFFFFFF#64)
    (fun t => t.readX 10#5 == 0x1#64) = true := by decide
theorem test_mulh : one 0x02C59533 (base 0xFFFFFFFFFFFFFFFF#64 0x2#64)
    (fun t => t.readX 10#5 == 0xFFFFFFFFFFFFFFFF#64) = true := by decide
theorem test_mulh_2 : one 0x02C59533 (base 0x8000000000000000#64 0x8000000000000000#64)
    (fun t => t.readX 10#5 == 0x4000000000000000#64) = true := by decide
theorem test_mulhsu : one 0x02C5A533 (base 0x1#64 0x1#64)
    (fun t => t.readCsr 0x341#12 == 0x80000000#64 && t.readCsr 0x342#12 == 0x2#64 && t.pc == 0x0#64) = true := by decide
theorem test_mulhu : one 0x02C5B533 (base 0xFFFFFFFFFFFFFFFF#64 0xFFFFFFFFFFFFFFFF#64)
    (fun t => t.readX 10#5 == 0xFFFFFFFFFFFFFFFE#64) = true := by decide
theorem test_div : one 0x02C5C533 (base 0xFFFFFFFFFFFFFFF9#64 0x2#64)
    (fun t => t.readX 10#5 == 0xFFFFFFFFFFFFFFFD#64) = true := by decide
theorem test_div_2 : one 0x02C5C533 (base 0x8000000000000000#64 0xFFFFFFFFFFFFFFFF#64)
    (fun t => t.readX 10#5 == 0x8000000000000000#64) = true := by decide
theorem test_divu : one 0x02C5D533 (base 0xFFFFFFFFFFFFFFFF#64 0x2#64)
    (fun t => t.readX 10#5 == 0x7FFFFFFFFFFFFFFF#64) = true := by decide
theorem test_divu_2 : one 0x02C5D533 (base 0x7#64 0x0#64)
    (fun t => t.readX 10#5 == 0xFFFFFFFFFFFFFFFF#64) = true := by decide
theorem test_rem : one 0x02C5E533 (base 0xFFFFFFFFFFFFFFF9#64 0x2#64)
    (fun t => t.readX 10#5 == 0xFFFFFFFFFFFFFFFF#64) = true := by decide
theorem test_rem_2 : one 0x02C5E533 (base 0xFFFFFFFFFFFFFFF9#64 0x0#64)
    (fun t => t.readX 10#5 == 0xFFFFFFFFFFFFFFF9#64) = true := by decide
theorem test_remu : one 0x02C5F533 (base 0xFFFFFFFFFFFFFFFF#64 0x10#64) (fun t => t.readX 10#5 == 0xF#64) = true := by decide
theorem test_remu_2 : one 0x02C5F533 (base 0xFFFFFFFFFFFFFFFF#64 0x0#64)
    (fun t => t.readX 10#5 == 0xFFFFFFFFFFFFFFFF#64) = true := by decide
theorem test_addw : one 0x00C5853B (base 0x7FFFFFFF#64 0x1#64)
    (fun t => t.readX 10#5 == 0xFFFFFFFF80000000#64) = true := by decide
theorem test_addw_2 : one 0x00C5853B (base 0xFFFFFFFF00000001#64 0x1234567800000001#64)
    (fun t => t.readX 10#5 == 0x2#64) = true := by decide
theorem test_subw : one 0x40C5853B (base 0x80000000#64 0x1#64) (fun t => t.readX 10#5 == 0x7FFFFFFF#64) = true := by decide
theorem test_sllw : one 0x00C5953B (base 0x1#64 0x1F#64) (fun t => t.readX 10#5 == 0xFFFFFFFF80000000#64) = true := by decide
theorem test_sllw_2 : one 0x00C5953B (base 0x1#64 0x20#64) (fun t => t.readX 10#5 == 0x1#64) = true := by decide
theorem test_srlw : one 0x00C5D53B (base 0xFFFFFFFF80000000#64 0x1F#64) (fun t => t.readX 10#5 == 0x1#64) = true := by decide
theorem test_srlw_2 : one 0x00C5D53B (base 0x80000000#64 0x0#64)
    (fun t => t.readX 10#5 == 0xFFFFFFFF80000000#64) = true := by decide
theorem test_sraw : one 0x40C5D53B (base 0x140000000#64 0x1E#64) (fun t => t.readX 10#5 == 0x1#64) = true := by decide
theorem test_sraw_2 : one 0x40C5D53B (base 0x80000000#64 0x1F#64)
    (fun t => t.readX 10#5 == 0xFFFFFFFFFFFFFFFF#64) = true := by decide
theorem test_mulw : one 0x02C5853B (base 0x10000#64 0x8000#64)
    (fun t => t.readX 10#5 == 0xFFFFFFFF80000000#64) = true := by decide
theorem test_divw : one 0x02C5C53B (base 0xFFFFFFFFFFFFFFF9#64 0x2#64)
    (fun t => t.readX 10#5 == 0xFFFFFFFFFFFFFFFD#64) = true := by decide
theorem test_divw_2 : one 0x02C5C53B (base 0x80000000#64 0xFFFFFFFF#64)
    (fun t => t.readX 10#5 == 0xFFFFFFFF80000000#64) = true := by decide
theorem test_divuw : one 0x02C5D53B (base 0xFFFFFFFF#64 0x1#64)
    (fun t => t.readX 10#5 == 0xFFFFFFFFFFFFFFFF#64) = true := by decide
theorem test_divuw_2 : one 0x02C5D53B (base 0x7#64 0x100000000#64)
    (fun t => t.readX 10#5 == 0xFFFFFFFFFFFFFFFF#64) = true := by decide
theorem test_remw : one 0x02C5E53B (base 0xFFFFFFFFFFFFFFF9#64 0x2#64)
    (fun t => t.readX 10#5 == 0xFFFFFFFFFFFFFFFF#64) = true := by decide
theorem test_remw_2 : one 0x02C5E53B (base 0x80000007#64 0x0#64)
    (fun t => t.readX 10#5 == 0xFFFFFFFF80000007#64) = true := by decide
theorem test_remuw : one 0x02C5F53B (base 0xFFFFFFFF#64 0x10#64) (fun t => t.readX 10#5 == 0xF#64) = true := by decide
theorem test_remuw_2 : one 0x02C5F53B (base 0x80000007#64 0x0#64)
    (fun t => t.readX 10#5 == 0xFFFFFFFF80000007#64) = true := by decide
theorem test_addi : one 0x7FF58513 (base 0x7FFFFFFFFFFFF801#64 0#64)
    (fun t => t.readX 10#5 == 0x8000000000000000#64) = true := by decide
theorem test_slti : one 0xFFF5A513 (base 0xFFFFFFFFFFFFFFFE#64 0#64) (fun t => t.readX 10#5 == 0x1#64) = true := by decide
theorem test_sltiu : one 0xFFF5B513 (base 0x5#64 0#64) (fun t => t.readX 10#5 == 0x1#64) = true := by decide
theorem test_xori : one 0xFFF5C513 (base 0xFF#64 0#64) (fun t => t.readX 10#5 == 0xFFFFFFFFFFFFFF00#64) = true := by decide
theorem test_ori : one 0x8005E513 (base 0x1#64 0#64) (fun t => t.readX 10#5 == 0xFFFFFFFFFFFFF801#64) = true := by decide
theorem test_andi : one 0x7FF5F513 (base 0xFFFFFFFFFFFFFFFF#64 0#64) (fun t => t.readX 10#5 == 0x7FF#64) = true := by decide
theorem test_slli : one 0x03F59513 (base 0x1#64 0#64) (fun t => t.readX 10#5 == 0x8000000000000000#64) = true := by decide
theorem test_srli : one 0x0205D513 (base 0xDEADBEEF00000000#64 0#64)
    (fun t => t.readX 10#5 == 0xDEADBEEF#64) = true := by decide
theorem test_srai : one 0x43F5D513 (base 0x8000000000000000#64 0#64)
    (fun t => t.readX 10#5 == 0xFFFFFFFFFFFFFFFF#64) = true := by decide
theorem test_addiw : one 0x0015851B (base 0x7FFFFFFF#64 0#64)
    (fun t => t.readX 10#5 == 0xFFFFFFFF80000000#64) = true := by decide
theorem test_addiw_2 : one 0x0005851B (base 0x1FFFFFFFF#64 0#64)
    (fun t => t.readX 10#5 == 0xFFFFFFFFFFFFFFFF#64) = true := by decide
theorem test_slliw : one 0x0045951B (base 0xFFFFFFFF1FFFFFFF#64 0#64)
    (fun t => t.readX 10#5 == 0xFFFFFFFFFFFFFFF0#64) = true := by decide
theorem test_srliw : one 0x0005D51B (base 0x80000000#64 0#64)
    (fun t => t.readX 10#5 == 0xFFFFFFFF80000000#64) = true := by decide
theorem test_sraiw : one 0x4015D51B (base 0x80000000#64 0#64)
    (fun t => t.readX 10#5 == 0xFFFFFFFFC0000000#64) = true := by decide
theorem test_lui : one 0x80000537 (base 0x1000#64 0#64) (fun t => t.readX 10#5 == 0xFFFFFFFF80000000#64) = true := by decide
theorem test_auipc : one 0x80000517 (base 0x1000#64 0#64) (fun t => t.readX 10#5 == 0x0#64) = true := by decide
theorem test_auipc_2 : one 0x00001517 (atPc 0x80001000#64 (base 0x1000#64 0#64))
    (fun t => t.readX 10#5 == 0x80002000#64 && t.pc == 0x80001004#64) = true := by decide
theorem test_jal : one 0xFFDFF0EF (atPc 0x80000100#64 (base 0x1000#64 0#64))
    (fun t => t.readX 1#5 == 0x80000104#64 && t.pc == 0x800000FC#64) = true := by decide
theorem test_jal_2 : one 0x7FFFF06F (base 0x1000#64 0#64) (fun t => t.pc == 0x800FFFFE#64) = true := by decide
theorem test_jalr : one 0x004080E7 ((base 0x1000#64 0#64).writeX 1#5 0x80000200#64)
    (fun t => t.readX 1#5 == 0x80000004#64 && t.pc == 0x80000204#64) = true := by decide
theorem test_jalr_2 : one 0x000580E7 (base 0x80000101#64 0#64)
    (fun t => t.readX 1#5 == 0x80000004#64 && t.pc == 0x80000100#64) = true := by decide
theorem test_beq : one 0x00C58463 (atPc 0x80001000#64 (base 0x5#64 0x5#64))
    (fun t => t.pc == 0x80001008#64) = true := by decide
theorem test_beq_2 : one 0x00C58463 (base 0x5#64 0x6#64) (fun t => t.pc == 0x80000004#64) = true := by decide
theorem test_bne : one 0xFEC59EE3 (atPc 0x80000010#64 (base 0x5#64 0x6#64))
    (fun t => t.pc == 0x8000000C#64) = true := by decide
theorem test_blt : one 0x00C5C863 (base 0xFFFFFFFFFFFFFFFF#64 0x0#64) (fun t => t.pc == 0x80000010#64) = true := by decide
theorem test_bge : one 0x00C5D863 (base 0x8000000000000000#64 0x0#64) (fun t => t.pc == 0x80000004#64) = true := by decide
theorem test_bltu : one 0x00C5E863 (base 0xFFFFFFFFFFFFFFFF#64 0x0#64) (fun t => t.pc == 0x80000004#64) = true := by decide
theorem test_bgeu : one 0x80C5F063 (atPc 0x80002000#64 (base 0x0#64 0x0#64))
    (fun t => t.pc == 0x80001000#64) = true := by decide
theorem test_lb : one 0x00058503 (ramAt 0x1000 1 0xFF (base 0x80001000#64 0#64))
    (fun t => t.readX 10#5 == 0xFFFFFFFFFFFFFFFF#64) = true := by decide
theorem test_lh : one 0x00259503 (ramAt 0x1000 4 0x8001FFFF (base 0x80001000#64 0#64))
    (fun t => t.readX 10#5 == 0xFFFFFFFFFFFF8001#64) = true := by decide
theorem test_lh_2 : one 0x00159503 (base 0x80001000#64 0#64)
    (fun t => t.readCsr 0x341#12 == 0x80000000#64 && t.readCsr 0x342#12 == 0x4#64 && t.pc == 0x0#64) = true := by decide
theorem test_lw : one 0x0045A503 (ramAt 0x1000 8 0x8877665544332211 (base 0x80001000#64 0#64))
    (fun t => t.readX 10#5 == 0xFFFFFFFF88776655#64) = true := by decide
theorem test_lw_2 : one 0x0025A503 (base 0x80001000#64 0#64)
    (fun t => t.readCsr 0x341#12 == 0x80000000#64 && t.readCsr 0x342#12 == 0x4#64 && t.pc == 0x0#64) = true := by decide
theorem test_ld : one 0x0005B503 (ramAt 0x1000 8 0x8877665544332211 (base 0x80001000#64 0#64))
    (fun t => t.readX 10#5 == 0x8877665544332211#64) = true := by decide
theorem test_ld_2 : one 0x0005B503 (base 0x84000000#64 0#64)
    (fun t => t.readCsr 0x341#12 == 0x80000000#64 && t.readCsr 0x342#12 == 0x5#64 && t.pc == 0x0#64) = true := by decide
theorem test_lbu : one 0x0005C503 (ramAt 0x1000 1 0xFF (base 0x80001000#64 0#64))
    (fun t => t.readX 10#5 == 0xFF#64) = true := by decide
theorem test_lhu : one 0x0025D503 (ramAt 0x1000 4 0x8001FFFF (base 0x80001000#64 0#64))
    (fun t => t.readX 10#5 == 0x8001#64) = true := by decide
theorem test_lwu : one 0xFFC5E503 (ramAt 0x1000 4 0x80000000 (base 0x80001004#64 0#64))
    (fun t => t.readX 10#5 == 0x80000000#64) = true := by decide
theorem test_sb : one 0x00C58023 (ramAt 0x1000 4 0xAAAAAAAA (base 0x80001000#64 0x1234#64))
    (fun t => t.ram.readLE 0x1000 1 == 0x34) = true := by decide
theorem test_sb_2 : one 0x00C58023 (base 0x10000000#64 0x141#64) (fun t => t.console == [0x41#8]) = true := by decide
theorem test_sh : one 0x00C59123 (ramAt 0x1000 4 0xAAAAAAAA (base 0x80001000#64 0x12345678#64))
    (fun t => t.ram.readLE 0x1002 2 == 0x5678) = true := by decide
theorem test_sw : one 0x00C5A023 (ramAt 0x1000 8 0xAAAAAAAAAAAAAAAA (base 0x80001000#64 0x1122334455667788#64))
    (fun t => t.ram.readLE 0x1000 4 == 0x55667788) = true := by decide
theorem test_sw_2 : one 0x00C5A023 (base 0x1000#64 0x1#64)
    (fun t => t.readCsr 0x341#12 == 0x80000000#64 && t.readCsr 0x342#12 == 0x7#64 && t.pc == 0x0#64) = true := by decide
theorem test_sd : one 0x00C5B023 (base 0x80001000#64 0x1122334455667788#64)
    (fun t => t.ram.readLE 0x1000 8 == 0x1122334455667788) = true := by decide
theorem test_sd_2 : one 0x00C5B423 (base 0x10000000#64 0x41#64) (fun t => t.pc == 0x80000004#64) = true := by decide
theorem test_fence : one 0x0FF0000F (base 0x1000#64 0#64) (fun t => t.pc == 0x80000004#64) = true := by decide
theorem test_fenceI : one 0x0000100F (base 0x1000#64 0#64) (fun t => t.pc == 0x80000004#64) = true := by decide
theorem test_csrrw : one 0x340595F3 ((base 0x1234#64 0#64).writeCsr 0x340#12 0xABCD#64)
    (fun t => t.readX 11#5 == 0xABCD#64 && t.readCsr 0x340#12 == 0x1234#64) = true := by decide
theorem test_csrrw_2 : one 0xF1459573 (base 0x7#64 0#64)
    (fun t => t.readX 10#5 == 0x0#64 && t.readCsr 0xF14#12 == 0x7#64) = true := by decide
theorem test_csrrs : one 0x3405A573 ((base 0xF0F#64 0#64).writeCsr 0x340#12 0xF000#64)
    (fun t => t.readX 10#5 == 0xF000#64 && t.readCsr 0x340#12 == 0xFF0F#64) = true := by decide
theorem test_csrrs_2 : one 0x3405A573 (inMode .user ((base 0x1#64 0#64).writeCsr 0x340#12 0x2#64))
    (fun t => t.readX 10#5 == 0x2#64 && t.readCsr 0x340#12 == 0x3#64) = true := by decide
theorem test_csrrc : one 0x3405B573 ((base 0xF0F#64 0#64).writeCsr 0x340#12 0xFFFF#64)
    (fun t => t.readX 10#5 == 0xFFFF#64 && t.readCsr 0x340#12 == 0xF0F0#64) = true := by decide
theorem test_csrrwi : one 0x340FD573 ((base 0x1000#64 0#64).writeCsr 0x340#12 0xABCD#64)
    (fun t => t.readX 10#5 == 0xABCD#64 && t.readCsr 0x340#12 == 0x1F#64) = true := by decide
theorem test_csrrsi : one 0x3402E573 ((base 0x1000#64 0#64).writeCsr 0x340#12 0x10#64)
    (fun t => t.readX 10#5 == 0x10#64 && t.readCsr 0x340#12 == 0x15#64) = true := by decide
theorem test_csrrci : one 0x3402F573 ((base 0x1000#64 0#64).writeCsr 0x340#12 0x1F#64)
    (fun t => t.readX 10#5 == 0x1F#64 && t.readCsr 0x340#12 == 0x1A#64) = true := by decide
theorem test_ecall : one 0x00000073 (inMode .machine ((base 0x1000#64 0#64).writeCsr 0x305#12 0x80000400#64))
    (fun t => t.readCsr 0x341#12 == 0x80000000#64 && t.readCsr 0x342#12 == 0xB#64 && t.pc == 0x80000400#64) = true := by decide
theorem test_ecall_2 : one 0x00000073 (inMode .user ((base 0x1000#64 0#64).writeCsr 0x305#12 0x80000400#64))
    (fun t => t.readCsr 0x341#12 == 0x80000000#64 && t.readCsr 0x342#12 == 0x8#64 && t.pc == 0x80000400#64) = true := by decide
theorem test_mret : one 0x30200073 ((((base 0x1000#64 0#64).writeCsr 0x341#12 0x80000800#64)).writeCsr 0x300#12 0x800#64)
    (fun t => t.pc == 0x80000800#64 && t.mode == .supervisor) = true := by decide
theorem test_mret_2 : one 0x30200073 ((((((base 0x1000#64 0#64).writeCsr 0x341#12 0x80000800#64)).writeCsr 0x300#12 0x1000#64)).writeCsr 0x305#12 0x80000400#64)
    (fun t => t.readCsr 0x341#12 == 0x80000000#64 && t.readCsr 0x342#12 == 0x2#64 && t.pc == 0x80000400#64) = true := by decide
theorem test_wfi : one 0x10500073 ((base 0x1000#64 0#64).writeCsr 0x305#12 0x80000400#64)
    (fun t => t.readCsr 0x341#12 == 0x80000000#64 && t.readCsr 0x342#12 == 0x2#64 && t.pc == 0x80000400#64) = true := by decide
theorem test_amoaddW : one 0x00C5A52F (ramAt 0x1000 8 0x11111111FFFFFFFF (base 0x80001000#64 0x1#64))
    (fun t => t.readX 10#5 == 0xFFFFFFFFFFFFFFFF#64 && t.ram.readLE 0x1000 4 == 0x0) = true := by decide
theorem test_amoaddW_2 : one 0x00C5A52F (romAt 0x0 4 0x9 (base 0x1000#64 0x5#64))
    (fun t => t.readCsr 0x341#12 == 0x80000000#64 && t.readCsr 0x342#12 == 0x7#64 && t.pc == 0x0#64) = true := by decide
theorem test_amoxorW : one 0x20C5A52F (ramAt 0x1000 4 0xF (base 0x80001000#64 0xFF#64))
    (fun t => t.readX 10#5 == 0xF#64 && t.ram.readLE 0x1000 1 == 0xf0) = true := by decide
theorem test_amoandW : one 0x60C5A52F (ramAt 0x1000 4 0xFFF0 (base 0x80001000#64 0xFFFFFFFF0000FF00#64))
    (fun t => t.readX 10#5 == 0xFFF0#64 && t.ram.readLE 0x1000 2 == 0xff00) = true := by decide
theorem test_amoorW : one 0x40C5A52F (ramAt 0x1000 4 0x1 (base 0x80001000#64 0xFFFFFFFF80000000#64))
    (fun t => t.readX 10#5 == 0x1#64 && t.ram.readLE 0x1003 1 == 0x80) = true := by decide
theorem test_amominW : one 0x80C5A52F (ramAt 0x1000 4 0xFFFFFFFF (base 0x80001000#64 0x1#64))
    (fun t => t.readX 10#5 == 0xFFFFFFFFFFFFFFFF#64) = true := by decide
theorem test_amomaxW : one 0xA0C5A52F (ramAt 0x1000 4 0xFFFFFFFF (base 0x80001000#64 0x1#64))
    (fun t => t.readX 10#5 == 0xFFFFFFFFFFFFFFFF#64 && t.ram.readLE 0x1000 4 == 0x1) = true := by decide
theorem test_amominuW : one 0xC0C5A52F (ramAt 0x1000 4 0xFFFFFFFF (base 0x80001000#64 0x1#64))
    (fun t => t.readX 10#5 == 0xFFFFFFFFFFFFFFFF#64 && t.ram.readLE 0x1000 4 == 0x1) = true := by decide
theorem test_amomaxuW : one 0xE0C5A52F (ramAt 0x1000 4 0xFFFFFFFF (base 0x80001000#64 0x1#64))
    (fun t => t.readX 10#5 == 0xFFFFFFFFFFFFFFFF#64) = true := by decide
theorem test_amoaddD : one 0x00C5B52F (ramAt 0x1000 8 0xFFFFFFFFFFFFFFFF (base 0x80001000#64 0x1#64))
    (fun t => t.readX 10#5 == 0xFFFFFFFFFFFFFFFF#64 && t.ram.readLE 0x1000 8 == 0x0) = true := by decide
theorem test_amoaddD_2 : one 0x00C5B5AF (ramAt 0x1000 8 0x7 (base 0x80001000#64 0x5#64))
    (fun t => t.readX 11#5 == 0x7#64 && t.ram.readLE 0x1000 1 == 0xc) = true := by decide
theorem test_amoxorD : one 0x20C5B52F (ramAt 0x1000 8 0xF (base 0x80001000#64 0xFF#64))
    (fun t => t.readX 10#5 == 0xF#64 && t.ram.readLE 0x1000 1 == 0xf0) = true := by decide
theorem test_amoandD : one 0x60C5B52F (ramAt 0x1000 8 0xFFF0 (base 0x80001000#64 0xFF00#64))
    (fun t => t.readX 10#5 == 0xFFF0#64 && t.ram.readLE 0x1000 1 == 0x0) = true := by decide
theorem test_amoorD : one 0x40C5B52F (ramAt 0x1000 8 0x1 (base 0x80001000#64 0x8000000000000000#64))
    (fun t => t.readX 10#5 == 0x1#64 && t.ram.readLE 0x1000 8 == 0x8000000000000001) = true := by decide
theorem test_amominD : one 0x80C5B52F (ramAt 0x1000 8 0x7FFFFFFFFFFFFFFF (base 0x80001000#64 0x8000000000000000#64))
    (fun t => t.readX 10#5 == 0x7FFFFFFFFFFFFFFF#64 && t.ram.readLE 0x1000 8 == 0x8000000000000000) = true := by decide
theorem test_amomaxD : one 0xA0C5B52F (ramAt 0x1000 8 0x7FFFFFFFFFFFFFFF (base 0x80001000#64 0x8000000000000000#64))
    (fun t => t.readX 10#5 == 0x7FFFFFFFFFFFFFFF#64) = true := by decide
theorem test_amominuD : one 0xC0C5B52F (ramAt 0x1000 8 0x7FFFFFFFFFFFFFFF (base 0x80001000#64 0x8000000000000000#64))
    (fun t => t.readX 10#5 == 0x7FFFFFFFFFFFFFFF#64) = true := by decide
theorem test_amomaxuD : one 0xE0C5B52F (ramAt 0x1000 8 0x7FFFFFFFFFFFFFFF (base 0x80001000#64 0x8000000000000000#64))
    (fun t => t.readX 10#5 == 0x7FFFFFFFFFFFFFFF#64 && t.ram.readLE 0x1000 8 == 0x8000000000000000) = true := by decide
theorem test_lrW : one 0x1005A52F (ramAt 0x1000 4 0x7 (base 0x80001000#64 0#64))
    (fun t => t.readCsr 0x341#12 == 0x80000000#64 && t.readCsr 0x342#12 == 0x2#64 && t.pc == 0x0#64) = true := by decide
theorem test_lrD : one 0x1005B52F (base 0x1#64 0#64)
    (fun t => t.readCsr 0x341#12 == 0x80000000#64 && t.readCsr 0x342#12 == 0x2#64) = true := by decide
theorem test_scW : one 0x18C5A52F (base 0x1#64 0#64)
    (fun t => t.readCsr 0x341#12 == 0x80000000#64 && t.readCsr 0x342#12 == 0x2#64) = true := by decide
theorem test_scD : one 0x18C5B52F (base 0x80001000#64 0x5#64)
    (fun t => t.readCsr 0x341#12 == 0x80000000#64 && t.readCsr 0x342#12 == 0x2#64 && t.pc == 0x0#64) = true := by decide
theorem test_amoswapW : one 0x08C5A52F (ramAt 0x1000 4 0x7 (base 0x80001000#64 0x5#64))
    (fun t => t.readCsr 0x341#12 == 0x80000000#64 && t.readCsr 0x342#12 == 0x2#64 && t.pc == 0x0#64) = true := by decide
theorem test_amoswapD : one 0x08C5B52F (base 0x80001000#64 0#64)
    (fun t => t.readCsr 0x341#12 == 0x80000000#64 && t.readCsr 0x342#12 == 0x2#64) = true := by decide

/-! ## Witnesses: for every obligation with hypotheses, states and operands that meet them, each clause at the ends of its range

The addresses are in `a1` (`x11`) of the base state; TESTCFG has BootRom at 0x1000 to 0xFFFF, the timer at 0x02000000 to 0x0200FFFF,
the console at 0x10000000 to 0x100000FF and MainMemory at 0x80000000 to 0x83FFFFFF. A one-byte access is never misaligned. -/

/-- DecodeOfEncode; StepKeepsInv and InvAtResetAndBoot have theirs below. -/
theorem witness_DecodeOfEncode : ∀ i ∈ [Instr.beq 1#5 2#5 0x1000#13, .bgeu 31#5 0#5 0x0FFE#13, .jal 0#5 0x100000#21,
    .jal 31#5 0x0FFFFE#21, .csrrw 0#5 0xFFF#12 31#5, .fence 15#4 15#4 15#4 31#5 31#5], i.wf = true := forall_mem _ (by decide)
theorem witness_EncodeOfDecode : ∀ w ∈ [0x00000033#32, 0xFE000FE3#32, 0xFFFFFFEF#32, 0x10500073#32],
    (decodeWord w).isSome = true := forall_mem _ (by decide)

/-! RowsSelectExactly, and the rows (`Selects`) of every result statement: a word with the fixed bits of each row. -/

theorem witness_rows_1 : ∀ p ∈ ([
    (0x00C58533#32, 0x00000033#32, 0xFE00707F#32), (0x40C58533#32, 0x40000033#32, 0xFE00707F#32), (0x00C59533#32, 0x00001033#32, 0xFE00707F#32),
    (0x00C5A533#32, 0x00002033#32, 0xFE00707F#32), (0x00C5B533#32, 0x00003033#32, 0xFE00707F#32), (0x00C5C533#32, 0x00004033#32, 0xFE00707F#32),
    (0x00C5D533#32, 0x00005033#32, 0xFE00707F#32), (0x40C5D533#32, 0x40005033#32, 0xFE00707F#32), (0x00C5E533#32, 0x00006033#32, 0xFE00707F#32),
    (0x00C5F533#32, 0x00007033#32, 0xFE00707F#32), (0x02C58533#32, 0x02000033#32, 0xFE00707F#32), (0x02C59533#32, 0x02001033#32, 0xFE00707F#32)] :
    List (Word32 × Word32 × Word32)), p.1 &&& p.2.2 = p.2.1 := forall_mem _ (by decide)
theorem witness_rows_2 : ∀ p ∈ ([
    (0x02C5A533#32, 0x02002033#32, 0xFE00707F#32), (0x02C5B533#32, 0x02003033#32, 0xFE00707F#32), (0x02C5C533#32, 0x02004033#32, 0xFE00707F#32),
    (0x02C5D533#32, 0x02005033#32, 0xFE00707F#32), (0x02C5E533#32, 0x02006033#32, 0xFE00707F#32), (0x02C5F533#32, 0x02007033#32, 0xFE00707F#32),
    (0x00C5853B#32, 0x0000003B#32, 0xFE00707F#32), (0x40C5853B#32, 0x4000003B#32, 0xFE00707F#32), (0x00C5953B#32, 0x0000103B#32, 0xFE00707F#32),
    (0x00C5D53B#32, 0x0000503B#32, 0xFE00707F#32), (0x40C5D53B#32, 0x4000503B#32, 0xFE00707F#32), (0x02C5853B#32, 0x0200003B#32, 0xFE00707F#32)] :
    List (Word32 × Word32 × Word32)), p.1 &&& p.2.2 = p.2.1 := forall_mem _ (by decide)
theorem witness_rows_3 : ∀ p ∈ ([
    (0x02C5C53B#32, 0x0200403B#32, 0xFE00707F#32), (0x02C5D53B#32, 0x0200503B#32, 0xFE00707F#32), (0x02C5E53B#32, 0x0200603B#32, 0xFE00707F#32),
    (0x02C5F53B#32, 0x0200703B#32, 0xFE00707F#32), (0x80058513#32, 0x00000013#32, 0x0000707F#32), (0xFFF5A513#32, 0x00002013#32, 0x0000707F#32),
    (0xFFF5B513#32, 0x00003013#32, 0x0000707F#32), (0xFFF5C513#32, 0x00004013#32, 0x0000707F#32), (0x8005E513#32, 0x00006013#32, 0x0000707F#32),
    (0x7FF5F513#32, 0x00007013#32, 0x0000707F#32), (0x03F59513#32, 0x00001013#32, 0xFC00707F#32), (0x0205D513#32, 0x00005013#32, 0xFC00707F#32)] :
    List (Word32 × Word32 × Word32)), p.1 &&& p.2.2 = p.2.1 := forall_mem _ (by decide)
theorem witness_rows_4 : ∀ p ∈ ([
    (0x4045D513#32, 0x40005013#32, 0xFC00707F#32), (0x0015851B#32, 0x0000001B#32, 0x0000707F#32), (0x0045951B#32, 0x0000101B#32, 0xFE00707F#32),
    (0x0015D51B#32, 0x0000501B#32, 0xFE00707F#32), (0x41F5D51B#32, 0x4000501B#32, 0xFE00707F#32), (0x12345537#32, 0x00000037#32, 0x0000007F#32),
    (0x7FFFF517#32, 0x00000017#32, 0x0000007F#32), (0x7FFFF06F#32, 0x0000006F#32, 0x0000007F#32), (0xFFC58067#32, 0x00000067#32, 0x0000707F#32),
    (0x7E000FE3#32, 0x00000063#32, 0x0000707F#32), (0xFEC59EE3#32, 0x00001063#32, 0x0000707F#32), (0x00C5C863#32, 0x00004063#32, 0x0000707F#32)] :
    List (Word32 × Word32 × Word32)), p.1 &&& p.2.2 = p.2.1 := forall_mem _ (by decide)
theorem witness_rows_5 : ∀ p ∈ ([
    (0x00C5D863#32, 0x00005063#32, 0x0000707F#32), (0x00C5E863#32, 0x00006063#32, 0x0000707F#32), (0x80C5F063#32, 0x00007063#32, 0x0000707F#32),
    (0x00058503#32, 0x00000003#32, 0x0000707F#32), (0x00259503#32, 0x00001003#32, 0x0000707F#32), (0xFFC5A503#32, 0x00002003#32, 0x0000707F#32),
    (0x0005B503#32, 0x00003003#32, 0x0000707F#32), (0x0005C503#32, 0x00004003#32, 0x0000707F#32), (0x0025D503#32, 0x00005003#32, 0x0000707F#32),
    (0xFFC5E503#32, 0x00006003#32, 0x0000707F#32), (0x00C58023#32, 0x00000023#32, 0x0000707F#32), (0x00C59123#32, 0x00001023#32, 0x0000707F#32)] :
    List (Word32 × Word32 × Word32)), p.1 &&& p.2.2 = p.2.1 := forall_mem _ (by decide)
theorem witness_rows_6 : ∀ p ∈ ([
    (0x00C5A023#32, 0x00002023#32, 0x0000707F#32), (0x00C5B423#32, 0x00003023#32, 0x0000707F#32), (0x0FF0000F#32, 0x0000000F#32, 0x0000707F#32),
    (0x0000100F#32, 0x0000100F#32, 0x0000707F#32), (0x34059573#32, 0x00001073#32, 0x0000707F#32), (0x3405A573#32, 0x00002073#32, 0x0000707F#32),
    (0x3405B573#32, 0x00003073#32, 0x0000707F#32), (0x340FD573#32, 0x00005073#32, 0x0000707F#32), (0x3402E573#32, 0x00006073#32, 0x0000707F#32),
    (0x3402F573#32, 0x00007073#32, 0x0000707F#32), (0x00000073#32, 0x00000073#32, 0xFFFFFFFF#32), (0x30200073#32, 0x30200073#32, 0xFFFFFFFF#32)] :
    List (Word32 × Word32 × Word32)), p.1 &&& p.2.2 = p.2.1 := forall_mem _ (by decide)
theorem witness_rows_7 : ∀ p ∈ ([
    (0x10500073#32, 0x10500073#32, 0xFFFFFFFF#32), (0x00C5A52F#32, 0x0000202F#32, 0xF800707F#32), (0x20C5A52F#32, 0x2000202F#32, 0xF800707F#32),
    (0x60C5A52F#32, 0x6000202F#32, 0xF800707F#32), (0x40C5A52F#32, 0x4000202F#32, 0xF800707F#32), (0x80C5A52F#32, 0x8000202F#32, 0xF800707F#32),
    (0xA0C5A52F#32, 0xA000202F#32, 0xF800707F#32), (0xC0C5A52F#32, 0xC000202F#32, 0xF800707F#32), (0xE0C5A52F#32, 0xE000202F#32, 0xF800707F#32),
    (0x00C5B52F#32, 0x0000302F#32, 0xF800707F#32), (0x20C5B52F#32, 0x2000302F#32, 0xF800707F#32), (0x60C5B52F#32, 0x6000302F#32, 0xF800707F#32)] :
    List (Word32 × Word32 × Word32)), p.1 &&& p.2.2 = p.2.1 := forall_mem _ (by decide)
theorem witness_rows_8 : ∀ p ∈ ([
    (0x40C5B52F#32, 0x4000302F#32, 0xF800707F#32), (0x80C5B52F#32, 0x8000302F#32, 0xF800707F#32), (0xA0C5B52F#32, 0xA000302F#32, 0xF800707F#32),
    (0xC0C5B52F#32, 0xC000302F#32, 0xF800707F#32), (0xE0C5B52F#32, 0xE000302F#32, 0xF800707F#32), (0x1005A52F#32, 0x1000202F#32, 0xF800707F#32),
    (0x1005B52F#32, 0x1000302F#32, 0xF800707F#32), (0x18C5A52F#32, 0x1800202F#32, 0xF800707F#32), (0x18C5B52F#32, 0x1800302F#32, 0xF800707F#32),
    (0x08C5A52F#32, 0x0800202F#32, 0xF800707F#32), (0x08C5B52F#32, 0x0800302F#32, 0xF800707F#32)] :
    List (Word32 × Word32 × Word32)), p.1 &&& p.2.2 = p.2.1 := forall_mem _ (by decide)

/-! UnlistedWordsMatchNoRow, ImmediateResults, WordImmediateResults and JalrResult: a word for each clause, the excluded value next
to an allowed one where there is one. -/

theorem witness_unlisted_opcode : ∀ w ∈ [0x00000000#32, 0xFFFFFFFF#32, 0x00000007#32], Enc.opcode w ∉ [0b0000011#7, 0b0001111#7,
    0b0010011#7, 0b0010111#7, 0b0011011#7, 0b0100011#7, 0b0101111#7, 0b0110011#7, 0b0110111#7, 0b0111011#7, 0b1100011#7,
    0b1100111#7, 0b1101111#7, 0b1110011#7] := forall_mem _ (by decide)
theorem witness_unlisted_jalr : ∀ w ∈ [0x00001067#32, 0x00007067#32], Enc.opcode w = 0b1100111#7 ∧ Enc.funct3 w ≠ 0#3 := forall_mem _ (by decide)
theorem witness_unlisted_load : Enc.opcode 0x00007003#32 = 0b0000011#7 ∧ Enc.funct3 0x00007003#32 = 7#3 := by decide
theorem witness_unlisted_store : ∀ w ∈ [0x00004023#32, 0x00007023#32],
    Enc.opcode w = 0b0100011#7 ∧ 4 ≤ (Enc.funct3 w).toNat := forall_mem _ (by decide)
theorem witness_unlisted_branch : ∀ w ∈ [0x00002063#32, 0x00003063#32],
    Enc.opcode w = 0b1100011#7 ∧ (Enc.funct3 w = 2#3 ∨ Enc.funct3 w = 3#3) := forall_mem _ (by decide)
theorem witness_unlisted_fence : ∀ w ∈ [0x0000200F#32, 0x0000700F#32],
    Enc.opcode w = 0b0001111#7 ∧ 2 ≤ (Enc.funct3 w).toNat := forall_mem _ (by decide)
theorem witness_unlisted_system : Enc.opcode 0x00004073#32 = 0b1110011#7 ∧ Enc.funct3 0x00004073#32 = 4#3 := by decide
theorem witness_unlisted_system_zero : ∀ w ∈ [0x000000F3#32, 0x00100073#32, 0x30208073#32], Enc.opcode w = 0b1110011#7 ∧
    Enc.funct3 w = 0#3 ∧ w ∉ [0x00000073#32, 0x30200073#32, 0x10500073#32] := forall_mem _ (by decide)
theorem witness_unlisted_amo_width : ∀ w ∈ [0x0000102F#32, 0x0000402F#32],
    Enc.opcode w = 0b0101111#7 ∧ Enc.funct3 w ∉ [2#3, 3#3] := forall_mem _ (by decide)
theorem witness_unlisted_slli : ∀ w ∈ [0x04001013#32, 0xFC001013#32],
    Enc.opcode w = 0b0010011#7 ∧ Enc.funct3 w = 1#3 ∧ Enc.funct6 w ≠ 0#6 := forall_mem _ (by decide)
theorem witness_unlisted_srli : ∀ w ∈ [0x04005013#32, 0x44005013#32],
    Enc.opcode w = 0b0010011#7 ∧ Enc.funct3 w = 5#3 ∧ Enc.funct6 w ≠ 0#6 ∧ Enc.funct6 w ≠ 16#6 := forall_mem _ (by decide)
theorem witness_unlisted_opImm32 : ∀ w ∈ [0x0000201B#32, 0x0000401B#32],
    Enc.opcode w = 0b0011011#7 ∧ Enc.funct3 w ∉ [0#3, 1#3, 5#3] := forall_mem _ (by decide)
theorem witness_unlisted_slliw : Enc.opcode 0x0200101B#32 = 0b0011011#7 ∧ Enc.funct3 0x0200101B#32 = 1#3 ∧
    Enc.funct3 0x0200101B#32 ≠ 0#3 ∧ (0x0200101B#32).getLsbD 25 = true := by decide
theorem witness_unlisted_slliw_funct7 : ∀ w ∈ [0x4015951B#32, 0x0215951B#32, 0xFE00101B#32],
    Enc.opcode w = 0b0011011#7 ∧ Enc.funct3 w = 1#3 ∧ Enc.funct7 w ≠ 0#7 := forall_mem _ (by decide)
theorem witness_unlisted_srliw_funct7 : ∀ w ∈ [0x0415D51B#32, 0x0215D51B#32, 0x4215D51B#32],
    Enc.opcode w = 0b0011011#7 ∧ Enc.funct3 w = 5#3 ∧ Enc.funct7 w ∉ [0#7, 32#7] := forall_mem _ (by decide)
theorem witness_unlisted_amo : ∀ w ∈ [0x2800202F#32, 0xF800302F#32], Enc.opcode w = 0b0101111#7 ∧
    Enc.funct5 w ∉ [0#5, 1#5, 2#5, 3#5, 4#5, 8#5, 12#5, 16#5, 20#5, 24#5, 28#5] := forall_mem _ (by decide)
theorem witness_unlisted_op : ∀ w ∈ [0x04000033#32, 0x42000033#32],
    Enc.opcode w = 0b0110011#7 ∧ Enc.funct7 w ∉ [0#7, 1#7, 32#7] := forall_mem _ (by decide)
theorem witness_unlisted_op_alt : ∀ w ∈ [0x40001033#32, 0x40007033#32],
    Enc.opcode w = 0b0110011#7 ∧ Enc.funct7 w = 32#7 ∧ Enc.funct3 w ∉ [0#3, 5#3] := forall_mem _ (by decide)
theorem witness_unlisted_op32 : ∀ w ∈ [0x0400003B#32, 0xFE00003B#32],
    Enc.opcode w = 0b0111011#7 ∧ Enc.funct7 w ∉ [0#7, 1#7, 32#7] := forall_mem _ (by decide)
theorem witness_unlisted_op32_base : ∀ w ∈ [0x0000203B#32, 0x0000703B#32],
    Enc.opcode w = 0b0111011#7 ∧ Enc.funct7 w = 0#7 ∧ Enc.funct3 w ∉ [0#3, 1#3, 5#3] := forall_mem _ (by decide)
theorem witness_unlisted_op32_alt : ∀ w ∈ [0x4000103B#32, 0x4000703B#32],
    Enc.opcode w = 0b0111011#7 ∧ Enc.funct7 w = 32#7 ∧ Enc.funct3 w ∉ [0#3, 5#3] := forall_mem _ (by decide)
theorem witness_unlisted_op32_muldiv : ∀ w ∈ [0x0200103B#32, 0x0200303B#32],
    Enc.opcode w = 0b0111011#7 ∧ Enc.funct7 w = 1#7 ∧ Enc.funct3 w ∉ [0#3, 4#3, 5#3, 6#3, 7#3] := forall_mem _ (by decide)
/-- A word that matches no row is fetched. -/
theorem witness_unlisted_fetch : fetch (base 0#64 0#64 |>.withFetchWord 32 0x00007003) = .ok 0x00007003#32 := by rfl

/-! Register results -/

theorem witness_QuotientAndRemainderAgree : 10#5 ≠ 0#5 ∧ (base 7#64 (-2#64)).readX 12#5 ≠ 0#64 := by decide
theorem witness_WordOpsIgnoreUpperHalves :
    unsignedN 32 ((base 0xFFFFFFFF00000001#64 0xF00000000#64).readX 11#5) = unsignedN 32 ((base 1#64 0#64).readX 11#5) ∧
    unsignedN 32 ((base 0xFFFFFFFF00000001#64 0xF00000000#64).readX 12#5) = unsignedN 32 ((base 1#64 0#64).readX 12#5) := by decide
theorem witness_BranchResults_equal : (base 5#64 5#64).readX 11#5 = (base 5#64 5#64).readX 12#5 ∧
    (base 5#64 6#64).readX 11#5 ≠ (base 5#64 6#64).readX 12#5 := by decide
theorem witness_BranchResults_signed :
    signedN 64 ((base (-1#64) 0#64).readX 11#5) < signedN 64 ((base (-1#64) 0#64).readX 12#5) ∧
    signedN 64 ((base 0#64 0#64).readX 11#5) ≥ signedN 64 ((base 0#64 0#64).readX 12#5) := by decide
theorem witness_BranchResults_unsigned :
    ((base 0#64 (-1#64)).readX 11#5).toNat < ((base 0#64 (-1#64)).readX 12#5).toNat ∧
    ((base 0#64 0#64).readX 11#5).toNat ≥ ((base 0#64 0#64).readX 12#5).toNat := by decide
theorem witness_BranchConditionsPartition : ∀ o ∈ [0#13, 2#13, 6#13, 0x1FFC#13], o ≠ 4#13 := forall_mem _ (by decide)

/-! Memory: the clauses of LoadResults, LdLoadsAllBits, StoreResults, StoresOutsideMainMemory, StoreThenLoadRoundTrip,
NarrowReadAfterWideStore, AmoWordResults and AmoDoublewordResults, as (address, width in bytes). The address is both the effective
address of `0(a1)` and the value of `a1`. -/

theorem witness_access_address : ∀ a ∈ [0x1000#64, 0x10000000#64, 0x83FFFFF8#64, 0x84000000#64], configValid (base a 0#64).cfg = true ∧
    effectiveAddr (base a 0#64) 11#5 0#12 = a ∧ (base a 0#64).readX 11#5 = a := forall_mem _ (by decide)
theorem witness_access_misaligned : ∀ p ∈ [(0x80000001#64, 2), (0x80000003#64, 4), (0x80000007#64, 8), (0x83FFFFFF#64, 8)],
    (effectiveAddr (base p.1 0#64) 11#5 0#12).toNat % p.2 ≠ 0 := forall_mem _ (by decide)
theorem witness_access_unmapped : ∀ p ∈ [(0x84000000#64, 1), (0x84000000#64, 8), (0x7FFFFFFE#64, 2), (0x0FFC#64, 4)],
    (effectiveAddr (base p.1 0#64) 11#5 0#12).toNat % p.2 = 0 ∧
      ¬Mapped (base p.1 0#64).cfg (effectiveAddr (base p.1 0#64) 11#5 0#12) := by
  unfold Mapped; exact forall_mem _ (by decide)
theorem witness_access_mainMemory : ∀ p ∈ [(0x80000000#64, 8), (0x83FFFFFF#64, 1), (0x83FFFFFE#64, 2), (0x83FFFFFC#64, 4),
      (0x83FFFFF8#64, 8)],
    (effectiveAddr (base p.1 0#64) 11#5 0#12).toNat % p.2 = 0 ∧
      Mapped (base p.1 0#64).cfg (effectiveAddr (base p.1 0#64) 11#5 0#12) ∧
      InRam (base p.1 0#64).cfg (effectiveAddr (base p.1 0#64) 11#5 0#12) := by
  unfold Mapped InRam; exact forall_mem _ (by decide)
theorem witness_access_bootRom : ∀ p ∈ [(0x1000#64, 8), (0xFFFF#64, 1), (0xFFFE#64, 2), (0xFFF8#64, 8)],
    (effectiveAddr (base p.1 0#64) 11#5 0#12).toNat % p.2 = 0 ∧
      Mapped (base p.1 0#64).cfg (effectiveAddr (base p.1 0#64) 11#5 0#12) ∧
      InRom (base p.1 0#64).cfg (effectiveAddr (base p.1 0#64) 11#5 0#12) := by
  unfold Mapped InRom; exact forall_mem _ (by decide)
theorem witness_access_timer : ∀ p ∈ [(0x02000000#64, 8), (0x0200FFFF#64, 1), (0x0200FFFC#64, 4), (0x0200FFF8#64, 8)],
    (effectiveAddr (base p.1 0#64) 11#5 0#12).toNat % p.2 = 0 ∧
      Mapped (base p.1 0#64).cfg (effectiveAddr (base p.1 0#64) 11#5 0#12) ∧
      InTimer (base p.1 0#64).cfg (effectiveAddr (base p.1 0#64) 11#5 0#12) := by
  unfold Mapped InTimer; exact forall_mem _ (by decide)
theorem witness_access_console_first :
    effectiveAddr (base 0x10000000#64 0x41#64) 11#5 0#12 = (base 0x10000000#64 0x41#64).cfg.uartStart ∧
      (base 0x10000000#64 0x41#64).readX 11#5 = (base 0x10000000#64 0x41#64).cfg.uartStart := by decide
theorem witness_access_console : ∀ p ∈ [(0x10000001#64, 1), (0x10000008#64, 8), (0x100000FF#64, 1), (0x100000F8#64, 8)],
    (effectiveAddr (base p.1 0#64) 11#5 0#12).toNat % p.2 = 0 ∧
      InConsole (base p.1 0#64).cfg (effectiveAddr (base p.1 0#64) 11#5 0#12) ∧
      effectiveAddr (base p.1 0#64) 11#5 0#12 ≠ (base p.1 0#64).cfg.uartStart := by
  unfold InConsole; exact forall_mem _ (by decide)
theorem witness_BytesByRegion : (∀ a ∈ [0x80000000#64, 0x83FFFFFF#64], InRam testCfg a) ∧
    (∀ a ∈ [0x1000#64, 0xFFFF#64], InRom testCfg a) ∧ (∀ a ∈ [0x10000000#64, 0x100000FF#64], InConsole testCfg a) ∧
    (∀ a ∈ [0x02000000#64, 0x0200FFFF#64], InTimer testCfg a) := by
  unfold InRam InRom InConsole InTimer
  exact ⟨forall_mem _ (by decide), forall_mem _ (by decide), forall_mem _ (by decide), forall_mem _ (by decide)⟩
theorem witness_BytesByRegion_unmapped :
    ∀ a ∈ [0#64, 0x0FFF#64, 0x10000#64, 0x84000000#64, 0xFFFFFFFFFFFFFFFF#64], ¬Mapped testCfg a := by
  unfold Mapped; exact forall_mem _ (by decide)
theorem witness_NarrowReadAfterWideStore : ∀ p ∈ [(0, 8, 8), (7, 1, 8), (4, 4, 8), (1, 0, 1)], p.1 + p.2.1 ≤ p.2.2 := forall_mem _ (by decide)

/-! CSRs and SYSTEM -/

theorem witness_CsrWriteThenRead : (31#5 : RegIdx) ≠ 0#5 := by decide
theorem witness_EcallTraps : (inMode .user (base 0#64 0#64)).mode = .user ∧
    (inMode .supervisor (base 0#64 0#64)).mode = .supervisor ∧ (base 0#64 0#64).mode = .machine := by decide
theorem witness_MretReturns : ∀ p ∈ [(0, 0xFFFFFFFFFFFFE7FF#64), (1, 0x800#64), (2, 0x1000#64), (3, 0x1800#64)],
    (((base 0#64 0#64).writeCsr 0x300#12 p.2).readCsr 0x300#12).toNat / 2 ^ 11 % 4 = p.1 := forall_mem _ (by decide)
theorem witness_AmoIgnoresOrderingBits : ∃ mk ∈ amoCtors, mk true false 1#5 2#5 3#5 = .scW true false 1#5 2#5 3#5 :=
  ⟨.scW, by simp [amoCtors], rfl⟩

/-! Exceptions and the step -/

/-- A step that fetches the last word of MainMemory. -/
theorem witness_StepRunsTheDecodedInstruction :
    let s := ramAt 0x3FFFFFC 4 0x00C58533 (atPc 0x83FFFFFC#64 (base 1#64 2#64))
    configValid s.cfg = true ∧ s.pc.toNat % 4 = 0 ∧ s.byteAt s.pc = some 0x33#8 ∧ s.byteAt (s.pc + 1#64) = some 0x85#8 ∧
      s.byteAt (s.pc + 2#64) = some 0xC5#8 ∧ s.byteAt (s.pc + 3#64) = some 0x00#8 ∧
      (match decode [0x33#8, 0x85#8, 0xC5#8, 0x00#8] with
        | .ok p => p == (.add 10#5 11#5 12#5, [])
        | .error _ => false) = true := by decide
theorem witness_FetchFailures_odd : ∀ a ∈ [0x80000001#64, 0x83FFFFFF#64], (atPc a (base 0#64 0#64)).pc.toNat % 2 = 1 := forall_mem _ (by decide)
theorem witness_FetchFailures_unmapped : ∀ a ∈ [0x84000000#64, 0x7FFFFFFE#64],
    (atPc a (base 0#64 0#64)).pc.toNat % 2 = 0 ∧ ¬Mapped (atPc a (base 0#64 0#64)).cfg (atPc a (base 0#64 0#64)).pc := by
  unfold Mapped; exact forall_mem _ (by decide)
theorem witness_FetchFailures_compressed : ∀ p ∈ [(0x80000000#64, 0), (0x80000002#64, 0xFFFE0000), (0x83FFFFFC#64, 1)],
    let s := ramAt ((p.1.toNat - 0x80000000) / 4 * 4) 4 p.2 (atPc p.1 (base 0#64 0#64))
    s.pc.toNat % 2 = 0 ∧ Mapped s.cfg s.pc ∧ s.leAt s.pc 2 % 4 ≠ 3 := by
  unfold Mapped; exact forall_mem _ (by decide)
theorem witness_FetchFailures_halfword :
    let s := ramAt 0 4 0x00130000 (atPc 0x80000002#64 (base 0#64 0#64))
    s.pc.toNat % 4 = 2 ∧ Mapped s.cfg s.pc ∧ s.leAt s.pc 2 % 4 = 3 := by
  unfold Mapped; decide
theorem witness_FetchFailures_noRow :
    let s := ramAt 0x3FFFFFC 4 0xFFFFFFFF (atPc 0x83FFFFFC#64 (base 0#64 0#64))
    s.pc.toNat % 4 = 0 ∧ Mapped s.cfg s.pc ∧ s.leAt s.pc 2 % 4 = 3 ∧ decodeWord (BitVec.ofNat 32 (s.leAt s.pc 4)) = none := by
  unfold Mapped; decide
/-- The state after reset traps: its memory holds zeros. -/
theorem witness_TrappedStepOnlyTakesTheException :
    ∃ t e, step State.reset = .next t ∧ t.report = some (.trapped e) := ⟨_, _, rfl, rfl⟩
theorem witness_HardwareErrorIsUnreachable : ∃ t, step (atPc 0#64 State.reset) = .next t := ⟨_, rfl⟩

/-! Rules of the whole machine -/

theorem witness_OnlyMretChangesMode : ∃ t, step (State.reset.withFetchWord 32 0x30200073) = .next t ∧ t.mode ≠ Mode.machine :=
  ⟨_, rfl, by decide⟩
theorem witness_ModeMattersToEcallOnly : Instr.mret ≠ .ecall ∧ Instr.wfi ≠ .ecall := by decide
theorem witness_ConfigurationAndBootRomAreConstant : (∃ t, Reaches 2 State.reset t) ∧ configValid State.reset.cfg = true ∧
    InRom State.reset.cfg 0xFFFF#64 :=
  ⟨⟨_, rfl⟩, by decide, by unfold InRom; decide⟩
/-- `sd a2, 0(a1)` to the console. -/
theorem witness_ConsoleGrowsOnlyByStores : ∃ t, step ((base 0x10000000#64 0x1234#64).withFetchWord 32 0x00C5B023) = .next t ∧
    t.console = [0x34#8] := ⟨_, rfl, by decide⟩
theorem witness_FaultLoopIsAFixedPoint_unmapped :
    let s := atPc 0x84000000#64 (State.reset.writeCsr 0x305#12 0x84000000#64)
    (configValid s.cfg && CsrFile.wf s.csrs && Memory.wf s.cfg.dramSize s.ram && Memory.wf romSize s.rom) = true ∧
      (∃ t, step s = .next t) ∧ s.pc = s.readCsr 0x305#12 ∧ ¬Mapped s.cfg s.pc :=
  ⟨by decide, ⟨_, rfl⟩, by decide, by unfold Mapped; decide⟩
theorem witness_FaultLoopIsAFixedPoint_misaligned :
    let s := atPc 0x80000001#64 (State.reset.writeCsr 0x305#12 0x80000001#64)
    (configValid s.cfg && CsrFile.wf s.csrs && Memory.wf s.cfg.dramSize s.ram && Memory.wf romSize s.rom) = true ∧
      (∃ t, step s = .next t) ∧ s.pc = s.readCsr 0x305#12 ∧ s.pc.toNat % 4 ≠ 0 :=
  ⟨by decide, ⟨_, rfl⟩, by decide, by decide⟩
/-- `sw a2, 0(a1)` with `a1` the next address. -/
theorem witness_StoreIsSeenByTheNextFetch : ∀ a ∈ [0x80000000#64, 0x83FFFFF8#64],
    let s := atPc a (base (a + 4#64) 0x00C58533#64)
    configValid s.cfg = true ∧ effectiveAddr s 11#5 0#12 = s.pc + 4#64 ∧ (s.pc + 4#64).toNat % 4 = 0 ∧
      InRam s.cfg (s.pc + 4#64) ∧ decodeWord ((s.readX 12#5).setWidth 32) = some (.add 10#5 11#5 12#5) := by
  unfold InRam; exact forall_mem _ (by decide)
theorem witness_LookupIgnoresTableOrder : configValid testCfg = true ∧ romRegion testCfg ∈ regionTable testCfg ∧
    regionHas (romRegion testCfg) 0x1000#64 = true := by decide
theorem witness_LookupIgnoresTableOrder_table :
    ([dramRegion testCfg, romRegion testCfg, uartRegion testCfg, clintRegion testCfg] : List Region).Perm (regionTable testCfg) := by
  decide
theorem witness_RegisterZeroIsHardwired : ∃ t, exec (.addi 0#5 11#5 1#12) (base 1#64 0#64) = .next t := ⟨_, rfl⟩

/-! Reset and the invariant -/

theorem witness_BootLoadsTheImages : (∃ s, State.boot testCfg [0x13#8] [0xFF#8] = some s) ∧ 0 < testCfg.dramSize ∧
    romSize - 1 < romSize := ⟨⟨_, rfl⟩, by decide, by decide⟩
theorem witness_BootLoadsTheImages_none : configValid { testCfg with uartStart := 0xFFF8#64 } = false := by decide
/-- An image one byte longer than BootRom. -/
theorem witness_BootLoadsTheImages_tooLong : romSize < (List.replicate 0xF001 (0#8 : Byte)).length := by
  rw [List.length_replicate]; decide
theorem witness_ConstructedValues : (3#5 : RegIdx) ≠ 2#5 ∧ (3#5 : RegIdx) ≠ 11#5 ∧ (0x300#12 : CsrIdx) ≠ 0x301#12 := by decide
theorem witness_InvAtResetAndBoot : ∃ s, State.boot testCfg [] [] = some s := ⟨_, rfl⟩
theorem witness_StepKeepsInv :
    (configValid State.reset.cfg && CsrFile.wf State.reset.csrs && Memory.wf State.reset.cfg.dramSize State.reset.ram &&
      Memory.wf romSize State.reset.rom) = true ∧ ∃ t, step State.reset = .next t := ⟨by decide, _, rfl⟩
theorem witness_PlacedWordRuns : configValid State.reset.cfg = true ∧
    decodeTableWord 32 0x00C58533 = some (.add 10#5 11#5 12#5) := by decide

end Sys2Proof.Tests
end

section
/-! PROOFS. The statements of 00_scope.md. First the reports of a step, then the fetch of a word that stands at `pc`, then
the outputs: what each operation appends to the console, and that nothing reads the console or the report. -/

namespace Sys2Proof.Machine

/-! ## The report of a step (00_scope.md R10, R33) -/

/-- Every effect but a trap retires the instruction. -/
theorem Effect.retired_or_trapEntry {i : Option Instr} {s t : State} (h : Effect i s t) :
    t.report = some .retired ∨ ∃ e, t = trapEntry e s := by
  rcases h with ⟨e, _, ht⟩ | ⟨_, _, _, rfl⟩ | ⟨_, _, _, rfl⟩ | ⟨_, _, _, rfl⟩ | ⟨_, _, _, _, _, _, _, _, rfl⟩
  · exact .inr ⟨e, ht⟩
  all_goals exact .inl rfl

/-- A step answers a next state, in which it retired an instruction or took one exception. -/
theorem step_retired_or_trapEntry (s : State) :
    ∃ t, step s = .next t ∧ (t.report = some .retired ∨ ∃ e, t = trapEntry e s) := by
  obtain ⟨t, ht, he⟩ := step_cases s
  exact ⟨t, ht, he.retired_or_trapEntry⟩

/-- Any number of steps can be run from any state. -/
theorem exists_reaches (k : Nat) : ∀ s : State, ∃ t, Reaches k s t := by
  induction k with
  | zero => exact fun s => ⟨s, rfl⟩
  | succ k ih =>
    intro s
    obtain ⟨u, hu, _⟩ := step_cases s
    obtain ⟨t, ht⟩ := ih u
    exact ⟨t, (reaches_succ hu).mpr ht⟩

/-- Settles O42: a step has one of the effects of `step_cases`, each of which retires or takes an exception. -/
theorem stepAlwaysSucceeds : Obligations.StepAlwaysSucceeds := by
  refine ⟨fun s => ?_, exists_reaches⟩
  obtain ⟨t, ht, hr | ⟨e, rfl⟩⟩ := step_retired_or_trapEntry s
  · exact ⟨t, ht, .inl hr⟩
  · exact ⟨_, ht, .inr ⟨e, trapEntry_report e s, trapEntry_pc e s⟩⟩

/-- Settles O43: a next state that reports a trap is `trapEntry` of the state before, so the step is `raise`. -/
theorem trappedStepOnlyTakesTheException : Obligations.TrappedStepOnlyTakesTheException := by
  intro s t e hstep hreport
  obtain ⟨u, hu, hr⟩ := step_retired_or_trapEntry s
  obtain rfl := Host.Outcome.next.inj (hu.symm.trans hstep)
  rcases hr with hr | ⟨e', rfl⟩
  · rw [hr] at hreport; cases hreport
  · rw [trapEntry_report] at hreport
    obtain rfl : e' = e := by cases hreport; rfl
    exact ⟨by rw [hu]; exact raise_traps e' s, rfl⟩

/-! ## The word at `pc` (30_encoding.md R141, 20_memory.md R99) -/

theorem current_eq_some {s : State} {i : Instr} :
    s.current = some i ↔ ∃ w, fetch s = .ok w ∧ decodeWord w = some i := by
  unfold State.current
  cases fetch s <;> simp

/-- A step whose fetch gives a word of `i` is the meaning of `i`. -/
theorem step_of_fetch {s : State} {w : Word32} {i : Instr} (hf : fetch s = .ok w) (hd : decodeWord w = some i) :
    step s = exec i s :=
  step_of_current (current_eq_some.mpr ⟨w, hf, hd⟩)

/-- The fetch from the four bytes at an aligned, mapped `pc`, when the length test finds a 32-bit word. -/
theorem fetch_of_leAt {s : State} (hv : configValid s.cfg = true) (hal : s.pc.toNat % 4 = 0) (hm : Mapped s.cfg s.pc)
    {w : Word32} (hw : s.leAt s.pc 4 = w.toNat) (hu : w.toNat % 4 = 3) : fetch s = .ok w := by
  obtain ⟨_, _, _, _, hfetch⟩ := fetch_spec hv
  have hhalf : s.leAt s.pc 2 % 4 = 3 := by
    have hsplit : s.leAt s.pc 4 = s.leAt s.pc 2 + 65536 * s.leAt (s.pc + 2#64) 2 := leAt_add s 2 2 s.pc
    omega
  rw [hfetch hal hm hhalf, hw, BitVec.ofNat_toNat, BitVec.setWidth_eq]

/-- The fetch of a word that the device at an aligned `pc` holds. -/
theorem fetch_of_deviceRead {s : State} (hv : configValid s.cfg = true) (hal : s.pc.toNat % 4 = 0) {r : Region}
    (hr : regionOf s.cfg s.pc = some r) {w : Word32}
    (hw : deviceRead s r.device (s.pc.toNat - r.start.toNat) 4 = w.toNat) (hu : w.toNat % 4 = 3) : fetch s = .ok w := by
  have hread : memRead s s.pc 4 = .ok (BitVec.ofNat 64 w.toNat) := by
    rw [memRead_eq s s.pc (by decide), if_neg (by omega), hr, ← hw]
  obtain ⟨hlt, hbytes⟩ := memRead_bytes hv (by decide) hread
  have hle := leAt_eq 4 hlt hbytes
  rw [BitVec.toNat_ofNat, Nat.mod_eq_of_lt (by have := w.isLt; omega)] at hle
  exact fetch_of_leAt hv hal (mapped_iff.mpr ⟨r, hr⟩) hle hu

theorem wordOfBytes_toNat (b0 b1 b2 b3 : Byte) :
    (wordOfBytes b0 b1 b2 b3).toNat = b0.toNat + 256 * (b1.toNat + 256 * (b2.toNat + 256 * b3.toNat)) := by
  unfold wordOfBytes
  simp only [Enc.toNat_append]
  omega

/-- The length test on the first halfword of a word. -/
theorem isUncompressed_wordOfBytes (b0 b1 b2 b3 : Byte) :
    isUncompressed (b1 ++ b0) = true ↔ (wordOfBytes b0 b1 b2 b3).toNat % 4 = 3 := by
  rw [isUncompressed, decide_eq_true_eq, ← BitVec.toNat_inj, Enc.toNat_extract, Enc.toNat_append, wordOfBytes_toNat]
  have : (3#2 : BitVec 2).toNat = 3 := rfl
  omega

/-- Four bytes decode to `i` when they pass the length test and their word is one of `i`. -/
theorem of_decode_ok {b0 b1 b2 b3 : Byte} {i : Instr} {rest : List Byte} (h : decode [b0, b1, b2, b3] = .ok (i, rest)) :
    (wordOfBytes b0 b1 b2 b3).toNat % 4 = 3 ∧ decodeWord (wordOfBytes b0 b1 b2 b3) = some i := by
  rw [← isUncompressed_wordOfBytes]
  simp only [decode] at h
  split at h
  · next hu =>
    split at h
    · next j hd => cases h; exact ⟨hu, hd⟩
    · cases h
  · cases h

theorem of_decodeTableWord {nbits w : Nat} {i : Instr} (h : decodeTableWord nbits w = some i) :
    (tableWord nbits w).toNat % 4 = 3 ∧ decodeWord (tableWord nbits w) = some i := by
  unfold decodeTableWord at h
  split at h
  · next j rest hd =>
    obtain rfl : j = i := by injection h
    have := of_decode_ok hd
    rwa [wordOfBytes_bytesOfWord] at this
  · cases h

/-- An address with a byte that a read can see is mapped. -/
theorem mapped_of_byteAt {s : State} {a : Word} {b : Byte} (h : s.byteAt a = some b) : Mapped s.cfg a := by
  by_contra hm
  rw [byteAt_eq, not_mapped_iff.mp hm] at h
  cases h

/-- Settles O40: the four bytes are the word that the fetch gives. -/
theorem stepRunsTheDecodedInstruction : Obligations.StepRunsTheDecodedInstruction := by
  intro s b0 b1 b2 b3 i hv hal h0 h1 h2 h3 hdec
  obtain ⟨hu, hd⟩ := of_decode_ok hdec
  have hw : s.leAt s.pc 4 = (wordOfBytes b0 b1 b2 b3).toNat := by
    rw [wordOfBytes_toNat]
    simp [State.leAt, BitVec.add_assoc, h0, h1, h2, h3]
  exact step_of_fetch (fetch_of_leAt hv hal (mapped_of_byteAt h0) hw hu) hd

/-! ## Placing a word (log entry 9) -/

theorem readLE_writeLE_word (m : Memory) (off : Nat) (w : Word32) :
    (m.writeLE off 4 w.toNat).readLE off 4 = w.toNat := by
  rw [Memory.readLE_writeLE_same]
  exact Nat.mod_eq_of_lt w.isLt

/-- The first address of MainMemory is aligned, and the lookup finds MainMemory there. -/
theorem dramStart_region {cfg : Config} (hv : configValid cfg = true) :
    cfg.dramStart.toNat % 4 = 0 ∧ regionOf cfg cfg.dramStart = some (dramRegion cfg) := by
  have hmem := dramRegion_mem cfg
  obtain ⟨hpos, _, h8, _⟩ := regionOk_iff.mp ((configValid_iff.mp hv).1 _ hmem)
  have h8 : cfg.dramStart.toNat % 8 = 0 := h8
  exact ⟨by omega, regionOf_eq hv hmem (regionHas_iff.mpr ⟨Nat.le_refl _, Nat.lt_add_of_pos_right hpos⟩)⟩

theorem fetch_loadWord {s : State} (hv : configValid s.cfg = true) {w : Word32} (hu : w.toNat % 4 = 3) :
    fetch (s.loadWord w) = .ok w := by
  obtain ⟨hal, hr⟩ := dramStart_region hv
  refine fetch_of_deviceRead (s := s.loadWord w) hv hal hr ?_ hu
  have hoff : (s.loadWord w).pc.toNat - (dramRegion s.cfg).start.toNat = 0 := Nat.sub_self _
  rw [hoff]
  exact readLE_writeLE_word s.ram 0 w

/-- The word placed is the word fetched, wherever `pc` was. -/
theorem fetch_placeWord {s : State} (hv : configValid s.cfg = true) {w : Word32} (hu : w.toNat % 4 = 3) :
    fetch (s.placeWord w) = .ok w := by
  unfold State.placeWord
  split
  · next hal =>
    split
    · next start _ hr =>
      exact fetch_of_deviceRead (s := { s with ram := s.ram.writeLE (s.pc.toNat - start.toNat) 4 w.toNat }) hv hal hr
        (readLE_writeLE_word _ _ w) hu
    · next start _ hr =>
      exact fetch_of_deviceRead (s := { s with rom := s.rom.writeLE (s.pc.toNat - start.toNat) 4 w.toNat }) hv hal hr
        (readLE_writeLE_word _ _ w) hu
    · exact fetch_loadWord hv hu
  · exact fetch_loadWord hv hu

/-- Settles O58: the next step fetches the word placed. -/
theorem placedWordRuns : Obligations.PlacedWordRuns := by
  intro s nbits w i hv hdec
  obtain ⟨hu, hd⟩ := of_decodeTableWord hdec
  exact step_of_fetch (fetch_placeWord hv hu) hd

/-! ## Outputs (00_scope.md R11, R12, 20_memory.md R104) -/

/-- The state with another console and another report. -/
def State.withOutputs (s : State) (console : List Byte) (report : Option Report) : State :=
  { s with console := console, report := report }

@[simp] theorem State.withOutputs_cfg (s : State) (console : List Byte) (report : Option Report) :
    (s.withOutputs console report).cfg = s.cfg := rfl
@[simp] theorem State.withOutputs_readX (s : State) (console : List Byte) (report : Option Report) (r : RegIdx) :
    (s.withOutputs console report).readX r = s.readX r := rfl
@[simp] theorem State.withOutputs_mpp (s : State) (console : List Byte) (report : Option Report) :
    (s.withOutputs console report).mpp = s.mpp := rfl
@[simp] theorem effectiveAddr_withOutputs (s : State) (console : List Byte) (report : Option Report) (rs1 : RegIdx)
    (imm : BitVec 12) : effectiveAddr (s.withOutputs console report) rs1 imm = effectiveAddr s rs1 imm := rfl
@[simp] theorem memRead_withOutputs (s : State) (console : List Byte) (report : Option Report) (a : Word) (n : Nat) :
    memRead (s.withOutputs console report) a n = memRead s a n := memRead_congr rfl rfl rfl a n
@[simp] theorem fetch_withOutputs (s : State) (console : List Byte) (report : Option Report) :
    fetch (s.withOutputs console report) = fetch s := by
  have hpc : (s.withOutputs console report).pc = s.pc := rfl
  unfold fetch
  rw [hpc, memRead_withOutputs, memRead_withOutputs]

theorem State.withOutputs_writeX (s : State) (console : List Byte) (report : Option Report) (rd : RegIdx) (v : Word) :
    (s.withOutputs console report).writeX rd v = (s.writeX rd v).withOutputs console report := by
  unfold State.writeX
  split <;> rfl

/-- From `s` to `t` the console has the bytes `emitted` more: none, or one that `P` allows. -/
def Emits (P : Byte → Prop) (s t : State) (emitted : List Byte) : Prop :=
  t.console = s.console ++ emitted ∧ (emitted = [] ∨ ∃ b, emitted = [b] ∧ P b)

theorem emits_nil {P : Byte → Prop} {s t : State} (h : t.console = s.console) : Emits P s t [] :=
  ⟨by rw [h, List.append_nil], .inl rfl⟩

/-- `r`, answered at `s`, and `r'`, answered at `s` with the console `console` and some other report, are next states that
differ in the console only: the same bytes were appended, none or one that `P` allows. -/
def OutputsAlike (P : Byte → Prop) (s : State) (console : List Byte) (r r' : Result) : Prop :=
  ∃ t emitted, r = .next t ∧ r' = .next { t with console := console ++ emitted } ∧ Emits P s t emitted

/-- The same of the answers of a write to memory: the same exception, or states that differ in the outputs only. -/
def WritesAlike (P : Byte → Prop) (s : State) (console : List Byte) (report : Option Report)
    (x x' : Except Exc State) : Prop :=
  (∃ e, x = .error e ∧ x' = .error e) ∨
  ∃ t emitted, x = .ok t ∧ x' = .ok (t.withOutputs (console ++ emitted) report) ∧ Emits P s t emitted

variable {P : Byte → Prop} {s : State} {console : List Byte} {report : Option Report}

theorem Emits.mono {Q : Byte → Prop} {t : State} {emitted : List Byte} (h : Emits P s t emitted)
    (hPQ : ∀ b, P b → Q b) : Emits Q s t emitted := by
  obtain ⟨hc, h | ⟨b, hb, hP⟩⟩ := h
  · exact ⟨hc, .inl h⟩
  · exact ⟨hc, .inr ⟨b, hb, hPQ b hP⟩⟩

theorem WritesAlike.mono {Q : Byte → Prop} {x x' : Except Exc State} (h : WritesAlike P s console report x x')
    (hPQ : ∀ b, P b → Q b) : WritesAlike Q s console report x x' := by
  obtain h | ⟨t, emitted, hx, hx', he⟩ := h
  · exact .inl h
  · exact .inr ⟨t, emitted, hx, hx', he.mono hPQ⟩

theorem OutputsAlike.mono {Q : Byte → Prop} {r r' : Result} (h : OutputsAlike P s console r r')
    (hPQ : ∀ b, P b → Q b) : OutputsAlike Q s console r r' := by
  obtain ⟨t, emitted, hr, hr', he⟩ := h
  exact ⟨t, emitted, hr, hr', he.mono hPQ⟩

/-! ### Writes to memory -/

/-- A device write appends to the console at offset 0 of the console device only, and reads no output. -/
theorem deviceWrite_alike (d : Device) (off n : Nat) (v : Word) :
    WritesAlike (fun b => d = .consoleSink ∧ off = 0 ∧ b = v.setWidth 8) s console report (deviceWrite s d off n v)
      (deviceWrite (s.withOutputs console report) d off n v) := by
  have hnil : console ++ [] = console := List.append_nil console
  cases d with
  | mainMemory => exact .inr ⟨_, [], rfl, by rw [hnil]; rfl, emits_nil rfl⟩
  | bootRom => exact .inl ⟨_, rfl, rfl⟩
  | timerController => exact .inr ⟨_, [], rfl, by rw [hnil]; rfl, emits_nil rfl⟩
  | consoleSink =>
    by_cases h0 : off = 0
    · subst h0
      exact .inr ⟨_, [v.setWidth 8], rfl, rfl, rfl, .inr ⟨_, rfl, rfl, rfl, rfl⟩⟩
    · refine .inr ⟨s, [], by simp [deviceWrite, h0], ?_, emits_nil rfl⟩
      simp [deviceWrite, h0]

theorem uartRegion_of_consoleSink {cfg : Config} {r : Region} (hr : r ∈ regionTable cfg) (hd : r.device = .consoleSink) :
    r = uartRegion cfg := by
  simp only [regionTable, List.mem_cons, List.not_mem_nil, or_false] at hr
  rcases hr with rfl | rfl | rfl | rfl
  · cases hd
  · rfl
  · cases hd
  · cases hd

/-- An address at offset 0 of the console's region is the console's first address. -/
theorem eq_uartStart {cfg : Config} {a : Word} {r : Region} (hr : regionOf cfg a = some r) (hd : r.device = .consoleSink)
    (h0 : a.toNat - r.start.toNat = 0) : a = cfg.uartStart := by
  obtain ⟨hmem, ha⟩ := regionOf_some hr
  obtain rfl := uartRegion_of_consoleSink hmem hd
  have hge := (regionHas_iff.mp ha).1
  exact BitVec.eq_of_toNat_eq (Nat.le_antisymm (Nat.le_of_sub_eq_zero h0) hge)

variable (s console report) in
/-- A write appends to the console at its first address only, the low byte, and reads no output. -/
theorem memWrite_alike (a v : Word) {n : Nat} (hn : n = 1 ∨ n = 2 ∨ n = 4 ∨ n = 8) :
    WritesAlike (fun b => a = s.cfg.uartStart ∧ b = v.setWidth 8) s console report (memWrite s a n v)
      (memWrite (s.withOutputs console report) a n v) := by
  rw [memWrite_eq s a v hn, memWrite_eq _ a v hn, State.withOutputs_cfg]
  split
  · exact .inl ⟨_, rfl, rfl⟩
  · cases hr : regionOf s.cfg a with
    | none => exact .inl ⟨_, rfl, rfl⟩
    | some r =>
      exact (deviceWrite_alike r.device _ n v).mono fun b ⟨hd, h0, hb⟩ => ⟨eq_uartStart hr hd h0, hb⟩

/-! ### The shared operations -/

/-- Writing a register and retiring appends nothing. -/
theorem writeX_alike (rd : RegIdx) (v target : Word) :
    OutputsAlike P s console (.next ((s.writeX rd v).retireTo target))
      (.next (((s.withOutputs console report).writeX rd v).retireTo target)) := by
  refine ⟨_, [], rfl, ?_, emits_nil (State.writeX_console s rd v)⟩
  rw [State.withOutputs_writeX, List.append_nil]
  rfl

theorem writeResult_alike (rd : RegIdx) (v : Word) :
    OutputsAlike P s console (writeResult rd v s) (writeResult rd v (s.withOutputs console report)) := by
  unfold writeResult retire
  rw [State.writeX_pc, State.writeX_pc]
  exact writeX_alike rd v _

theorem raise_alike (e : Exc) :
    OutputsAlike P s console (raise e s) (raise e (s.withOutputs console report)) :=
  ⟨_, [], rfl, by rw [List.append_nil]; rfl, emits_nil rfl⟩

theorem branchIf_alike (cond : Bool) (offset : BitVec 13) :
    OutputsAlike P s console (branchIf cond offset s) (branchIf cond offset (s.withOutputs console report)) := by
  cases cond
  · exact writeX_alike 0#5 0#64 _
  · exact writeX_alike 0#5 0#64 _

theorem csrUpdate_alike (rd : RegIdx) (c : CsrIdx) (v : Word) :
    OutputsAlike P s console (csrUpdate rd c v s) (csrUpdate rd c v (s.withOutputs console report)) :=
  writeResult_alike (s := s.writeCsr c v) rd (s.readCsr c)

theorem trapReturn_alike :
    OutputsAlike P s console (trapReturn s) (trapReturn (s.withOutputs console report)) := by
  unfold trapReturn
  rw [State.withOutputs_mpp]
  cases modeOfMpp s.mpp with
  | none => exact raise_alike _
  | some m => exact writeX_alike (s := { s with mode := m }) 0#5 0#64 _

theorem loadInto_alike (rd rs1 : RegIdx) (imm : BitVec 12) (n : Nat) (ext : Word → Word) :
    OutputsAlike P s console (loadInto rd rs1 imm n ext s) (loadInto rd rs1 imm n ext (s.withOutputs console report)) := by
  unfold loadInto
  rw [memRead_withOutputs, effectiveAddr_withOutputs]
  cases memRead s (effectiveAddr s rs1 imm) n with
  | error e => exact raise_alike e
  | ok v => exact writeResult_alike rd (ext v)

/-- Writing a register and retiring after a write to memory appends what the write appended. -/
theorem writeX_after_write_alike {t : State} {emitted : List Byte} (he : Emits P s t emitted) (rd : RegIdx) (v : Word) :
    OutputsAlike P s console (retire (t.writeX rd v))
      (retire ((t.withOutputs (console ++ emitted) report).writeX rd v)) := by
  obtain ⟨hc, hP⟩ := he
  refine ⟨_, emitted, rfl, ?_, (State.writeX_console t rd v).trans hc, hP⟩
  rw [State.withOutputs_writeX]
  rfl

/-- A store appends to the console at its first address only, the low byte of its register. -/
theorem storeFrom_alike (rs1 rs2 : RegIdx) (imm : BitVec 12) {n : Nat} (hn : n = 1 ∨ n = 2 ∨ n = 4 ∨ n = 8) :
    OutputsAlike (fun b => effectiveAddr s rs1 imm = s.cfg.uartStart ∧ b = (s.readX rs2).setWidth 8) s console
      (storeFrom rs1 rs2 imm n s) (storeFrom rs1 rs2 imm n (s.withOutputs console report)) := by
  unfold storeFrom
  rw [effectiveAddr_withOutputs, State.withOutputs_readX]
  obtain ⟨e, hx, hx'⟩ | ⟨t, emitted, hx, hx', he⟩ :=
    memWrite_alike s console report (effectiveAddr s rs1 imm) (s.readX rs2) hn
  · rw [hx, hx']; exact raise_alike e
  · rw [hx, hx']; exact writeX_after_write_alike he 0#5 0#64

/-- An AMO appends to the console at its first address only. -/
theorem amo_alike (rd rs1 : RegIdx) {n : Nat} (hn : n = 1 ∨ n = 2 ∨ n = 4 ∨ n = 8) (new ret : Word → Word) :
    OutputsAlike (fun _ => s.readX rs1 = s.cfg.uartStart) s console (amo rd rs1 n new ret s)
      (amo rd rs1 n new ret (s.withOutputs console report)) := by
  unfold amo
  rw [memRead_withOutputs, State.withOutputs_readX]
  cases memRead s (s.readX rs1) n with
  | error e => exact raise_alike e
  | ok old =>
    obtain ⟨e, hx, hx'⟩ | ⟨t, emitted, hx, hx', he⟩ := memWrite_alike s console report (s.readX rs1) (new old) hn
    · simp only [hx, hx']; exact raise_alike e
    · simp only [hx, hx']
      exact writeX_after_write_alike (he.mono fun b hb => hb.1) rd (ret old)

/-! ### The instructions and the step -/

/-- What `i` may append to the console at `s`: a store to the console's first address, the low byte of its register; an AMO
there, some byte. -/
def MayEmit (i : Instr) (s : State) (b : Byte) : Prop :=
  (∃ mk ∈ [Instr.sb, .sh, .sw, .sd], ∃ rs1 rs2 imm, i = mk rs1 rs2 imm ∧
    effectiveAddr s rs1 imm = s.cfg.uartStart ∧ b = (s.readX rs2).setWidth 8) ∨
  (∃ mk ∈ amoCtors, ∃ aq rl rd rs1 rs2, i = mk aq rl rd rs1 rs2 ∧ s.readX rs1 = s.cfg.uartStart)

theorem store_mayEmit_alike {mk : RegIdx → RegIdx → BitVec 12 → Instr} (hmk : mk ∈ [Instr.sb, .sh, .sw, .sd])
    (rs1 rs2 : RegIdx) (imm : BitVec 12) {n : Nat} (hn : n = 1 ∨ n = 2 ∨ n = 4 ∨ n = 8) :
    OutputsAlike (MayEmit (mk rs1 rs2 imm) s) s console (storeFrom rs1 rs2 imm n s)
      (storeFrom rs1 rs2 imm n (s.withOutputs console report)) :=
  (storeFrom_alike rs1 rs2 imm hn).mono fun _ ⟨ha, hb⟩ => .inl ⟨mk, hmk, rs1, rs2, imm, rfl, ha, hb⟩

theorem amo_mayEmit_alike {mk : AmoCtor} (hmk : mk ∈ amoCtors) (aq rl : Bool) (rd rs1 rs2 : RegIdx) {n : Nat}
    (hn : n = 1 ∨ n = 2 ∨ n = 4 ∨ n = 8) (new ret : Word → Word) :
    OutputsAlike (MayEmit (mk aq rl rd rs1 rs2) s) s console (amo rd rs1 n new ret s)
      (amo rd rs1 n new ret (s.withOutputs console report)) :=
  (amo_alike rd rs1 hn new ret).mono fun _ ha => .inr ⟨mk, hmk, aq, rl, rd, rs1, rs2, rfl, ha⟩

/-- No instruction reads the console or the report, and only a store or an AMO appends to the console. -/
theorem exec_alike (i : Instr) :
    OutputsAlike (MayEmit i s) s console (exec i s) (exec i (s.withOutputs console report)) := by
  cases i
  case jal | jalr => exact writeX_alike _ _ _
  case beq | bne | blt | bge | bltu | bgeu => exact branchIf_alike _ _
  case lb | lh | lw | ld | lbu | lhu | lwu => exact loadInto_alike _ _ _ _ _
  case sb | sh | sw | sd => exact store_mayEmit_alike (by simp) _ _ _ (by decide)
  case fence | fenceI => exact writeX_alike 0#5 0#64 _
  case csrrw | csrrs | csrrc | csrrwi | csrrsi | csrrci => exact csrUpdate_alike _ _ _
  case mret => exact trapReturn_alike
  case mulhsu | ecall | wfi | lrW | lrD | scW | scD | amoswapW | amoswapD => exact raise_alike _
  case amoaddW | amoxorW | amoandW | amoorW | amominW | amomaxW | amominuW | amomaxuW
      | amoaddD | amoxorD | amoandD | amoorD | amominD | amomaxD | amominuD | amomaxuD =>
    exact amo_mayEmit_alike (by simp [amoCtors]) _ _ _ _ _ (by decide) _ _
  -- every other instruction computes the value of one register
  all_goals exact writeResult_alike _ _

variable (s console report) in
/-- No step reads the console or the report, and only the store or AMO at `pc` appends to the console. -/
theorem step_alike :
    OutputsAlike (fun b => ∃ i, s.current = some i ∧ MayEmit i s b) s console (step s)
      (step (s.withOutputs console report)) := by
  unfold step
  rw [fetch_withOutputs]
  cases hf : fetch s with
  | error e => exact raise_alike e
  | ok w =>
    cases hd : decodeWord w with
    | none => simp only [hd]; exact raise_alike _
    | some i =>
      simp only [hd]
      exact (exec_alike i).mono fun b hb => ⟨i, current_eq_some.mpr ⟨w, hf, hd⟩, hb⟩

/-- Settles O48: `step_alike` with the outputs left as they are. -/
theorem consoleGrowsOnlyByStores : Obligations.ConsoleGrowsOnlyByStores := by
  intro s t hstep
  obtain ⟨u, emitted, hu, _, hc, hP⟩ := step_alike s s.console s.report
  obtain rfl := Host.Outcome.next.inj (hu.symm.trans hstep)
  rcases hP with rfl | ⟨b, rfl, i, hi, hb⟩
  · exact .inl (hc.trans (List.append_nil _))
  · obtain ⟨w, hf, hd⟩ := current_eq_some.mp hi
    exact .inr ⟨b, w, i, hc, hf, hd, hb⟩

/-- Settles O49: the two steps of `step_alike`. -/
theorem outputsAreNotRead : Obligations.OutputsAreNotRead := by
  intro s console report
  obtain ⟨t, emitted, ht, ht', hc, _⟩ := step_alike s console report
  exact ⟨t, _, emitted, ht, ht', hc, rfl⟩

end Sys2Proof.Machine
end

section
/-! PROOFS. The statements of 10_state.md. First what the shared effects of Laws/Exec.lean keep of the configuration, BootRom,
the mode and the canonical forms; then the state as constructed and loaded; then registers and CSRs. -/

namespace Sys2Proof.Machine

/-! ## What a step keeps (10_state.md R60, R64) -/

/-- No effect writes the configuration or BootRom. -/
theorem Effect.cfg_rom {i : Option Instr} {s t : State} (h : Effect i s t) : t.cfg = s.cfg ∧ t.rom = s.rom := by
  rcases h with ⟨e, _, rfl⟩ | ⟨rd, v, target, rfl⟩ | ⟨rd, c, v, rfl⟩ | ⟨m, _, _, rfl⟩ | ⟨a, n, v, u, rd, w, hn, hu, rfl⟩
  case inr.inr.inr.inr =>
    obtain ⟨hcfg, _, _, _, _, hrom, _⟩ := memWrite_fields hn hu
    simp [hcfg, hrom]
  all_goals simp

/-- Only the effect of MRET writes the mode. -/
theorem Effect.mode {i : Option Instr} {s t : State} (h : Effect i s t) :
    t.mode = s.mode ∨ i = some .mret ∧ modeOfMpp s.mpp = some t.mode ∧ t.pc = s.readCsr Csr.mepc := by
  rcases h with ⟨e, _, rfl⟩ | ⟨rd, v, target, rfl⟩ | ⟨rd, c, v, rfl⟩ | ⟨m, hi, hm, rfl⟩ | ⟨a, n, v, u, rd, w, hn, hu, rfl⟩
  case inr.inr.inr.inl => exact .inr ⟨hi, hm, rfl⟩
  case inr.inr.inr.inr =>
    obtain ⟨_, _, _, _, hmode, _, _⟩ := memWrite_fields hn hu
    simp [hmode]
  all_goals simp

/-- The effect by which a step leads to its next state. -/
theorem effect_of_step {s t : State} (h : step s = .next t) : Effect s.current s t := by
  obtain ⟨u, hu, he⟩ := step_cases s
  obtain rfl := Host.Outcome.next.inj (hu.symm.trans h)
  exact he

/-- Settles O45: the one effect that writes the mode is that of the MRET at `pc`. -/
theorem onlyMretChangesMode : Obligations.OnlyMretChangesMode := by
  intro s t hstep hne
  obtain hmode | ⟨hi, hmpp, hpc⟩ := (effect_of_step hstep).mode
  · exact absurd hmode hne
  · exact ⟨current_eq_some.mp hi, hmpp, hpc⟩

/-- What every step keeps, every run keeps. -/
theorem Reaches.keeps {P : State → Prop} (hstep : ∀ s t, P s → step s = .next t → P t) (k : Nat) :
    ∀ {s t : State}, Reaches k s t → P s → P t := by
  induction k with
  | zero =>
    intro s t h hs
    obtain rfl : s = t := Host.Outcome.next.inj h
    exact hs
  | succ k ih =>
    intro s t h hs
    obtain ⟨u, hu, _⟩ := step_cases s
    exact ih ((reaches_succ hu).mp h) (hstep s u hs hu)

theorem Reaches.cfg_rom {k : Nat} {s t : State} (h : Reaches k s t) : t.cfg = s.cfg ∧ t.rom = s.rom := by
  refine h.keeps (P := fun u => u.cfg = s.cfg ∧ u.rom = s.rom) (fun u u' hu hstep => ?_) k ⟨rfl, rfl⟩
  obtain ⟨hcfg, hrom⟩ := (effect_of_step hstep).cfg_rom
  exact ⟨hcfg.trans hu.1, hrom.trans hu.2⟩

/-- The byte a read sees in BootRom's region is BootRom's own. -/
theorem byteAt_of_inRom {s : State} (hv : configValid s.cfg = true) {a : Word} (ha : InRom s.cfg a) :
    s.byteAt a = some (s.rom.readByte (a.toNat - s.cfg.dtbStart.toNat)) := by
  rw [byteAt_eq, regionOf_eq hv (romRegion_mem s.cfg) ha]
  rfl

/-- Settles O47: no effect writes the configuration or BootRom, and a byte of BootRom's region depends on these two. -/
theorem configurationAndBootRomAreConstant : Obligations.ConfigurationAndBootRomAreConstant := by
  intro k s t hrun
  obtain ⟨hcfg, hrom⟩ := hrun.cfg_rom
  refine ⟨hcfg, hrom, fun a hv ha => ?_⟩
  rw [byteAt_of_inRom hv ha, byteAt_of_inRom (by rwa [hcfg]) (by rwa [hcfg]), hcfg, hrom]

/-! ## The invariant (10_state.md R49, 20_memory.md R94, R96) -/

/-- The invariant reads four fields only. -/
theorem State.Inv.congr {s t : State} (h : s.Inv) (hcfg : t.cfg = s.cfg) (hcsrs : t.csrs = s.csrs) (hram : t.ram = s.ram)
    (hrom : t.rom = s.rom) : t.Inv := by
  unfold State.Inv
  rw [hcfg, hcsrs, hram, hrom]
  exact h

theorem State.Inv.retireTo {s : State} (h : s.Inv) (target : Word) : (s.retireTo target).Inv := h

theorem State.Inv.writeX {s : State} (h : s.Inv) (rd : RegIdx) (v : Word) : (s.writeX rd v).Inv :=
  h.congr (by simp) (by simp) (by simp) (by simp)

theorem State.Inv.writeCsr {s : State} (h : s.Inv) (c : CsrIdx) (v : Word) : (s.writeCsr c v).Inv := by
  obtain ⟨hv, hcsrs, hram, hrom⟩ := h
  exact ⟨hv, State.writeCsr_wf hcsrs c v, hram, hrom⟩

theorem State.Inv.trapEntry {s : State} (h : s.Inv) (e : Exc) : (Machine.trapEntry e s).Inv := by
  obtain ⟨hv, hcsrs, hram, hrom⟩ := h
  exact ⟨hv, trapEntry_csrs_wf hcsrs e, hram, hrom⟩

/-- An aligned access that begins in MainMemory ends in it (20_memory.md R109). -/
theorem dram_offset_add_le {cfg : Config} (hv : configValid cfg = true) {a : Word} (ha : InRam cfg a) {n : Nat}
    (hn : n = 1 ∨ n = 2 ∨ n = 4 ∨ n = 8) (hal : a.toNat % n = 0) : a.toNat - cfg.dramStart.toNat + n ≤ cfg.dramSize := by
  have hpos : 0 < n := by omega
  obtain ⟨hlast, hin⟩ := no_straddle ((configValid_iff.mp hv).1 _ (dramRegion_mem cfg)) ha hn hal (Nat.sub_one_lt_of_lt hpos)
  have hfirst : cfg.dramStart.toNat ≤ a.toNat := (regionHas_iff.mp ha).1
  have hend : (a + BitVec.ofNat 64 (n - 1)).toNat < cfg.dramStart.toNat + cfg.dramSize := (regionHas_iff.mp hin).2
  omega

/-- A write to memory keeps the invariant: the bytes it stores lie in MainMemory. -/
theorem State.Inv.memWrite {s t : State} (h : s.Inv) {a v : Word} {n : Nat} (hn : n = 1 ∨ n = 2 ∨ n = 4 ∨ n = 8)
    (hw : Machine.memWrite s a n v = .ok t) : t.Inv := by
  obtain ⟨hal, r, hr, ⟨hd, rfl⟩ | ⟨_, _, rfl⟩ | ⟨_, _, rfl⟩ | ⟨_, rfl⟩⟩ := memWrite_ok hn hw
  · obtain ⟨hmem, ha⟩ := regionOf_some hr
    obtain rfl := dramRegion_of_mainMemory hmem hd
    obtain ⟨hv, hcsrs, hram, hrom⟩ := h
    exact ⟨hv, hcsrs, Memory.wf_writeLE n hram _ (dram_offset_add_le hv ha hn hal), hrom⟩
  · exact h
  · exact h
  · exact h

theorem Effect.inv {i : Option Instr} {s t : State} (h : Effect i s t) (hs : s.Inv) : t.Inv := by
  rcases h with ⟨e, _, rfl⟩ | ⟨rd, v, target, rfl⟩ | ⟨rd, c, v, rfl⟩ | ⟨m, _, _, rfl⟩ | ⟨a, n, v, u, rd, w, hn, hu, rfl⟩
  · exact hs.trapEntry e
  · exact (hs.writeX rd v).retireTo target
  · exact ((hs.writeCsr c v).writeX rd _).retireTo _
  · exact hs.congr rfl rfl rfl rfl
  · exact ((hs.memWrite hn hu).writeX rd w).retireTo _

/-- Settles O57: every effect of `step_cases` keeps the invariant. -/
theorem stepKeepsInv : Obligations.StepKeepsInv :=
  fun _ _ hs hstep => (effect_of_step hstep).inv hs

/-! ## Construction and loading (10_state.md R70, 70_reset_and_hazards.md R476 to R478) -/

/-- The machine as constructed, before its two non-zero registers are set. -/
def State.allZero (cfg : Config) : State := { State.construct cfg with regs := Vector.replicate 31 0#64 }

theorem State.allZero_readX (cfg : Config) (r : RegIdx) : (State.allZero cfg).readX r = 0#64 := by
  unfold State.readX
  split
  · rfl
  · exact Vector.getElem_replicate _

/-- Construction sets `sp`, then `a1`. -/
theorem construct_eq_writeX (cfg : Config) :
    State.construct cfg = ((State.allZero cfg).writeX 2#5 (dramEnd cfg)).writeX 11#5 cfg.dtbStart := rfl

/-- `misa` is the one CSR listed after construction. -/
theorem construct_readCsr (cfg : Config) (c : CsrIdx) :
    (State.construct cfg).readCsr c = if c = Csr.misa then misaReset else 0#64 := by
  have hc : c = Csr.misa ↔ 0x301 = c.toNat := by rw [← BitVec.toNat_inj, eq_comm]; rfl
  rw [if_congr hc rfl rfl]
  rfl

/-- Settles O54: the registers by the two writes of `construct_eq_writeX`, the CSRs by the one entry of the file. -/
theorem constructedValues : Obligations.ConstructedValues := by
  intro cfg
  refine ⟨rfl, rfl, fun r h2 h11 => ?_, rfl, fun c hc => ?_, rfl, rfl, rfl, rfl⟩
  · rw [construct_eq_writeX, State.readX_writeX, State.readX_writeX, State.allZero_readX]
    simp [h2, h11]
  · exact (construct_readCsr cfg c).trans (if_neg hc)

theorem construct_inv {cfg : Config} (hv : configValid cfg = true) : (State.construct cfg).Inv :=
  ⟨hv, by rfl, by rfl, by rfl⟩

theorem State.Inv.loadRam {s : State} (h : s.Inv) {bytes : List Byte} (hlen : bytes.length ≤ s.cfg.dramSize) :
    (s.loadRam bytes).Inv := by
  obtain ⟨hv, hcsrs, hram, hrom⟩ := h
  exact ⟨hv, hcsrs, Memory.wf_writeBytes bytes hram (by rwa [Nat.zero_add]), hrom⟩

theorem State.Inv.loadRom {s : State} (h : s.Inv) {bytes : List Byte} (hlen : bytes.length ≤ romSize) :
    (s.loadRom bytes).Inv := by
  obtain ⟨hv, hcsrs, hram, hrom⟩ := h
  exact ⟨hv, hcsrs, hram, Memory.wf_writeBytes bytes hrom (by rwa [Nat.zero_add])⟩

theorem State.Inv.loadPc {s : State} (h : s.Inv) : s.loadPc.Inv := h

/-- What boot builds, and from what. -/
theorem boot_eq_some {cfg : Config} {program blob : List Byte} {s : State} :
    State.boot cfg program blob = some s ↔
      (configValid cfg = true ∧ program.length ≤ cfg.dramSize ∧ blob.length ≤ romSize) ∧
      (((State.construct cfg).loadRam program).loadRom blob).loadPc = s := by
  simp [State.boot, and_assoc]

/-- Settles O56: the constructed machine meets the invariant, and each of the loader's moves keeps it. -/
theorem invAtResetAndBoot : Obligations.InvAtResetAndBoot := by
  refine ⟨construct_inv (by decide), fun cfg program blob s h => ?_⟩
  obtain ⟨⟨hv, hprogram, hblob⟩, rfl⟩ := boot_eq_some.mp h
  exact (((construct_inv hv).loadRam hprogram).loadRom hblob).loadPc

/-! ## `x0` and the CSRs (10_state.md R41, R50) -/

/-- Settles O53: `x0` reads 0 at every state, so at every next state, and JALR and CSRRW have their effect for every `rd`. -/
theorem registerZeroIsHardwired : Obligations.RegisterZeroIsHardwired := by
  intro s v
  refine ⟨s.readX_zero, State.readX_zero _, s.writeX_zero v, fun i t _ => t.readX_zero, fun rs1 imm => ?_,
    fun csr rs1 => csrUpdate_updates 0#5 csr (s.readX rs1) s⟩
  exact retireTo_retires s (jalrTarget s rs1 imm)

/-- Settles O31: each of the two instructions updates the CSR, the second one with the value it already has. -/
theorem csrWriteThenRead : Obligations.CsrWriteThenRead := by
  intro s c rs rd hrd
  obtain ⟨t, ht, _, _, hcsrT, _, ⟨_, hmodeT, _⟩, _, _⟩ := csrUpdate_updates 0#5 c (s.readX rs) s
  obtain ⟨u, hu, ⟨_, hregU⟩, _, hcsrU, _, ⟨_, hmodeU, _⟩, _, _⟩ := csrUpdate_updates rd c (t.readCsr c ||| t.readX 0#5) t
  have hread : t.readCsr c = s.readX rs := by rw [hcsrT, if_pos rfl]
  refine ⟨t, u, ht, hu, ?_, ?_, fun c' hc => ?_, hmodeU.trans hmodeT⟩
  · rw [hregU rd hrd, if_pos rfl, hread]
  · rw [hcsrU, if_pos rfl, hread, State.readX_zero, BitVec.or_zero]
  · rw [hcsrU, if_neg hc, hcsrT, if_neg hc]

end Sys2Proof.Machine
end

section
/-! PROOFS. The statements of 20_memory.md. First the regions and the byte a read sees in each; then stores, and what a read
after a store sees; then the fetch: the steps that run no instruction, and a store that the next fetch sees. -/

namespace Sys2Proof.Machine

/-! ## Regions (20_memory.md R92, R93, R95) -/

theorem mapped_iff_inRegion {cfg : Config} {a : Word} :
    Mapped cfg a ↔ InRom cfg a ∨ InConsole cfg a ∨ InTimer cfg a ∨ InRam cfg a := by
  simp [Mapped, regionTable, InRom, InConsole, InTimer, InRam]

/-- Settles O59: the bounds are those of `regionHas_iff`, and the table lists the four regions. -/
theorem regionBounds : Obligations.RegionBounds :=
  fun _ _ => ⟨regionHas_iff, regionHas_iff, regionHas_iff, regionHas_iff, mapped_iff_inRegion⟩

/-- In a valid configuration any list of the table's regions gives the same lookup. -/
theorem find?_eq_regionOf {cfg : Config} (hv : configValid cfg = true) {table : List Region}
    (hmem : ∀ r, r ∈ table ↔ r ∈ regionTable cfg) (a : Word) : (table.find? fun r => regionHas r a) = regionOf cfg a := by
  cases h : table.find? fun r => regionHas r a with
  | none =>
    rw [eq_comm, regionOf_none]
    intro r hr
    simpa using List.find?_eq_none.mp h r ((hmem r).mpr hr)
  | some r =>
    exact (regionOf_eq hv ((hmem r).mp (List.mem_of_find?_eq_some h)) (List.find?_some (p := fun r => regionHas r a) h)).symm

/-- Settles O52: uniqueness is `region_unique`, and a permutation of the table lists the same regions. -/
theorem lookupIgnoresTableOrder : Obligations.LookupIgnoresTableOrder :=
  fun _ a hv => ⟨fun _ hr _ hq => region_unique hv hr hq, fun _ hperm => find?_eq_regionOf hv (fun _ => hperm.mem_iff) a⟩

/-! ## The byte a read sees (20_memory.md R101 to R105) -/

theorem byteAt_of_inRam {s : State} (hv : configValid s.cfg = true) {a : Word} (ha : InRam s.cfg a) :
    s.byteAt a = some (s.ram.readByte (a.toNat - s.cfg.dramStart.toNat)) := by
  rw [byteAt_eq, regionOf_eq hv (dramRegion_mem s.cfg) ha]
  rfl

theorem byteAt_of_inConsole {s : State} (hv : configValid s.cfg = true) {a : Word} (ha : InConsole s.cfg a) :
    s.byteAt a = some 0#8 := by
  rw [byteAt_eq, regionOf_eq hv (uartRegion_mem s.cfg) ha]
  rfl

theorem byteAt_of_inTimer {s : State} (hv : configValid s.cfg = true) {a : Word} (ha : InTimer s.cfg a) :
    s.byteAt a = some 0#8 := by
  rw [byteAt_eq, regionOf_eq hv (clintRegion_mem s.cfg) ha]
  rfl

theorem byteAt_of_not_mapped {s : State} {a : Word} (ha : ¬Mapped s.cfg a) : s.byteAt a = none := by
  rw [byteAt_eq, not_mapped_iff.mp ha]

/-- Settles O24: the lookup finds the region that has the address, and its device answers the byte. -/
theorem bytesByRegion : Obligations.BytesByRegion :=
  fun _ _ hv => ⟨byteAt_of_inRam hv, byteAt_of_inRom hv, byteAt_of_inConsole hv, byteAt_of_inTimer hv, byteAt_of_not_mapped⟩

/-! ## Stores (46_load_store_fence.md R329) -/

/-- A store instruction of width `n` does outside MainMemory what the shared store does. -/
theorem storesToDevices_of {mk : RegIdx → RegIdx → BitVec 12 → Instr} {n : Nat} (hn : n = 1 ∨ n = 2 ∨ n = 4 ∨ n = 8)
    (hmk : ∀ rs1 rs2 imm s, exec (mk rs1 rs2 imm) s = storeFrom rs1 rs2 imm n s) : StoresToDevices mk n := by
  intro s rs1 rs2 imm hv hal
  obtain ⟨_, _, hrom, _, htimer, hfirst, hconsole⟩ := storeFrom_spec hv rs1 rs2 imm hn
  rw [hmk]
  exact ⟨hrom hal, htimer hal, hfirst, hconsole hal⟩

/-- Settles O26: each of the four stores is the shared store of its width. -/
theorem storesOutsideMainMemory : Obligations.StoresOutsideMainMemory :=
  ⟨storesToDevices_of (by decide) fun _ _ _ _ => rfl, storesToDevices_of (by decide) fun _ _ _ _ => rfl,
    storesToDevices_of (by decide) fun _ _ _ _ => rfl, storesToDevices_of (by decide) fun _ _ _ _ => rfl⟩

/-- Byte `k` of the low `n` bytes of a number is byte `k` of the number. -/
theorem byte_of_mod {k n : Nat} (hk : k < n) (v : Nat) :
    BitVec.ofNat 8 (v % 256 ^ n / 256 ^ k) = BitVec.ofNat 8 (v / 256 ^ k) := by
  obtain ⟨m, rfl⟩ := Nat.exists_eq_add_of_lt hk
  have hdvd : 256 ∣ 256 ^ (m + 1) := dvd_pow_self 256 m.succ_ne_zero
  apply BitVec.eq_of_toNat_eq
  rw [BitVec.toNat_ofNat, BitVec.toNat_ofNat, Nat.add_assoc, Nat.pow_add, Nat.mod_mul_right_div_self]
  exact Nat.mod_mod_of_dvd _ hdvd

/-- The number of `n` bytes that are the low bytes of `v`. -/
theorem leAt_eq_mod {s : State} {a : Word} {n v : Nat}
    (h : ∀ k, k < n → s.byteAt (a + BitVec.ofNat 64 k) = some (BitVec.ofNat 8 (v / 256 ^ k))) :
    s.leAt a n = v % 256 ^ n :=
  leAt_eq n (Nat.mod_lt _ (Nat.pow_pos (by decide))) fun k hk => by rw [h k hk, byte_of_mod hk]

/-- After a store of `n` bytes into MainMemory, any run of the bytes stored reads as its part of the value. -/
theorem StoresWith.leAt {r : Result} {s : State} {rd : RegIdx} {v a : Word} {n w : Nat} (h : StoresWith r s rd v a n w)
    (hv : configValid s.cfg = true) (ha : InRam s.cfg a) (hn : n = 1 ∨ n = 2 ∨ n = 4 ∨ n = 8) (hal : a.toNat % n = 0) :
    ∃ t, r = .next t ∧ RegsWith s t rd v ∧ t.pc = s.pc + 4#64 ∧ t.cfg = s.cfg ∧
      ∀ k m, k + m ≤ n → t.leAt (a + BitVec.ofNat 64 k) m = w / 256 ^ k % 256 ^ m := by
  obtain ⟨t, hr, hregs, hpc, _, hbytes, ⟨hcfg, _, _⟩, _, _⟩ := h
  refine ⟨t, hr, hregs, hpc, hcfg, fun k m hkm => leAt_eq_mod fun j hj => ?_⟩
  have hok := (configValid_iff.mp hv).1 _ (dramRegion_mem s.cfg)
  have haddr : (a + BitVec.ofNat 64 (k + j)).toNat = a.toNat + (k + j) := (no_straddle hok ha hn hal (by omega)).1
  rw [BitVec.add_assoc, ← BitVec.ofNat_add, hbytes, if_pos (by omega), haddr, Nat.add_sub_cancel_left, Nat.pow_add,
    Nat.div_div_eq_div_mul]

/-- A store instruction of `n` bytes into MainMemory, aligned: the next state and its bytes there. -/
theorem storeFrom_leAt {s : State} (hv : configValid s.cfg = true) {rs1 : RegIdx} (rs2 : RegIdx) {imm : BitVec 12} {n : Nat}
    (hn : n = 1 ∨ n = 2 ∨ n = 4 ∨ n = 8) (ha : InRam s.cfg (effectiveAddr s rs1 imm))
    (hal : (effectiveAddr s rs1 imm).toNat % n = 0) :
    ∃ t, storeFrom rs1 rs2 imm n s = .next t ∧ RegsWith s t 0#5 0#64 ∧ t.pc = s.pc + 4#64 ∧ t.cfg = s.cfg ∧
      ∀ k m, k + m ≤ n →
        t.leAt (effectiveAddr s rs1 imm + BitVec.ofNat 64 k) m = (s.readX rs2).toNat / 256 ^ k % 256 ^ m := by
  obtain ⟨_, _, _, hram, _⟩ := storeFrom_spec hv rs1 rs2 imm hn
  exact (hram hal ha).leAt hv ha hn hal

/-- Settles O28: each of the four stores is the shared store of its width. -/
theorem narrowReadAfterWideStore : Obligations.NarrowReadAfterWideStore := by
  intro p hp s rs1 rs2 imm hv ha hal
  simp only [List.mem_cons, List.not_mem_nil, or_false] at hp
  rcases hp with rfl | rfl | rfl | rfl
  all_goals
    obtain ⟨t, ht, _, _, _, hle⟩ := storeFrom_leAt hv rs2 (by decide) ha hal
    exact ⟨t, ht, hle⟩

/-! ### A load after a store (20_memory.md R122) -/

/-- A load's sign extension of the number it read. -/
theorem sext_ofNat {n : Nat} (hn : 0 < n) (h64 : n ≤ 64) (v : Nat) :
    ((BitVec.ofNat 64 v).setWidth n).signExtend 64 = sextN n v := by
  rw [sextN_eq hn, BitVec.setWidth_ofNat_of_le h64, BitVec.ofInt_natCast]

/-- A load's zero extension of the number it read. -/
theorem zext_ofNat {n v : Nat} (h64 : n ≤ 64) (hlt : v < 2 ^ n) :
    ((BitVec.ofNat 64 v).setWidth n).setWidth 64 = wordOf v := by
  rw [BitVec.setWidth_ofNat_of_le h64, BitVec.setWidth_ofNat_of_le_of_lt h64 hlt, wordOf_natCast]

theorem unsignedN_lt (n : Nat) (v : Word) : unsignedN n v < 2 ^ n := Nat.mod_lt _ (Nat.two_pow_pos n)

theorem effectiveAddr_of_regsWith {s t : State} (h : RegsWith s t 0#5 0#64) (rs1 : RegIdx) (imm : BitVec 12) :
    effectiveAddr t rs1 imm = effectiveAddr s rs1 imm := by
  obtain ⟨h0, hregs⟩ := h
  unfold effectiveAddr
  by_cases hr : rs1 = 0#5
  · rw [hr, h0, State.readX_zero]
  · rw [hregs rs1 hr, if_neg hr]

/-- After a store of `n` bytes into MainMemory, a load of `n` bytes at the same address gets the extension of the low `n` bytes
of the register stored. -/
theorem loadInto_after_storeFrom {s : State} (hv : configValid s.cfg = true) (rd : RegIdx) {rs1 : RegIdx} (rs2 : RegIdx)
    {imm : BitVec 12} {n : Nat} (hn : n = 1 ∨ n = 2 ∨ n = 4 ∨ n = 8) (ha : InRam s.cfg (effectiveAddr s rs1 imm))
    (hal : (effectiveAddr s rs1 imm).toNat % n = 0) :
    ∃ t, storeFrom rs1 rs2 imm n s = .next t ∧
      ∀ (ext : Word → Word) (v : Word), ext (BitVec.ofNat 64 (unsignedN (8 * n) (s.readX rs2))) = v →
        RetiresWith (loadInto rd rs1 imm n ext t) t rd v (t.pc + 4#64) := by
  obtain ⟨t, ht, hregs, _, hcfg, hle⟩ := storeFrom_leAt hv rs2 hn ha hal
  refine ⟨t, ht, fun ext v hext => ?_⟩
  have haddr := effectiveAddr_of_regsWith hregs rs1 imm
  have hread : t.leAt (effectiveAddr s rs1 imm) n = unsignedN (8 * n) (s.readX rs2) := by
    rw [unsignedN, Nat.pow_mul]
    simpa using hle 0 n (by omega)
  obtain ⟨_, _, hload⟩ := loadInto_spec (hcfg ▸ hv) rd rs1 imm hn ext
  rw [hcfg, haddr, hread, hext] at hload
  exact (hload hal (mapped_of_mem (dramRegion_mem _) ha)).2

/-- Settles O27: the shared store and load of each width, and the extension that each load applies to what it read. -/
theorem storeThenLoadRoundTrip : Obligations.StoreThenLoadRoundTrip := by
  intro s rd rs1 rs2 imm hv ha
  refine ⟨?_, fun hal => ?_, fun hal => ?_, fun hal => ?_⟩
  · obtain ⟨t, ht, hload⟩ := loadInto_after_storeFrom hv rd rs2 (n := 1) (by decide) ha (Nat.mod_one _)
    exact ⟨t, ht, hload loadZext8 _ (zext_ofNat (by decide) (unsignedN_lt 8 _)),
      hload loadSext8 _ (sext_ofNat (n := 8) (by decide) (by decide) _)⟩
  · obtain ⟨t, ht, hload⟩ := loadInto_after_storeFrom hv rd rs2 (n := 2) (by decide) ha hal
    exact ⟨t, ht, hload loadZext16 _ (zext_ofNat (by decide) (unsignedN_lt 16 _)),
      hload loadSext16 _ (sext_ofNat (n := 16) (by decide) (by decide) _)⟩
  · obtain ⟨t, ht, hload⟩ := loadInto_after_storeFrom hv rd rs2 (n := 4) (by decide) ha hal
    exact ⟨t, ht, hload loadZext32 _ (zext_ofNat (by decide) (unsignedN_lt 32 _)),
      hload loadSext32 _ (sext_ofNat (n := 32) (by decide) (by decide) _)⟩
  · obtain ⟨t, ht, hload⟩ := loadInto_after_storeFrom hv rd rs2 (n := 8) (by decide) ha hal
    refine ⟨t, ht, hload id _ ?_⟩
    rw [id, unsignedN_64, BitVec.ofNat_toNat, BitVec.setWidth_eq]

/-! ## Fetch (30_encoding.md R141, 60_exceptions.md R428) -/

theorem step_of_fetch_error {s : State} {e : Exc} (h : fetch s = .error e) : Traps (step s) s e := by
  unfold step
  rw [h]
  exact raise_traps e s

/-- Settles O41: the first check of the fetch that fails, or a word that matches no row. -/
theorem fetchFailures : Obligations.FetchFailures := by
  intro s hv
  obtain ⟨hodd, hunmapped, hcompressed, hhalf, hword⟩ := fetch_spec hv
  refine ⟨fun hp => ?_, fun hp hm => ?_, fun hp hm hu => ?_, fun hp hm hu => ?_, fun hp hm hu hd => ?_⟩
  · exact step_of_fetch_error (hodd (by omega))
  · exact step_of_fetch_error (hunmapped hp hm)
  · exact step_of_fetch_error (hcompressed hp hm hu)
  · exact step_of_fetch_error (hhalf hp hm hu)
  · exact (matchesNoRow_of hd).2 s (hword hp hm hu)

/-- No effect reports HardwareError. -/
theorem Effect.report_ne_hardwareError {i : Option Instr} {s t : State} (h : Effect i s t) :
    t.report ≠ some (.trapped .hardwareError) := by
  rcases h with ⟨e, he, rfl⟩ | ⟨_, _, _, rfl⟩ | ⟨_, _, _, rfl⟩ | ⟨_, _, _, rfl⟩ | ⟨_, _, _, _, _, _, _, _, rfl⟩
  · simpa using he
  all_goals simp

/-- Settles O44: a step has one of the effects of `step_cases`, and the exception it may take is never HardwareError. -/
theorem hardwareErrorIsUnreachable : Obligations.HardwareErrorIsUnreachable :=
  fun _ _ hstep => (effect_of_step hstep).report_ne_hardwareError

/-! ### Fetching what was stored (20_memory.md R119) -/

/-- A word whose opcode decodes has the low two bits 11. -/
theorem opcode_of_decodeOpcode {w : Word32} {i : Instr} (h : decodeOpcode w = some i) : (Enc.opcode w).toNat % 4 = 3 := by
  unfold decodeOpcode at h
  split at h
  case h_15 => cases h
  all_goals next ho => rw [ho]; rfl

theorem low_bits_of_decodeWord {w : Word32} {i : Instr} (h : decodeWord w = some i) : w.toNat % 4 = 3 := by
  unfold decodeWord at h
  split at h
  · next hw => subst hw; rfl
  split at h
  · next hw => subst hw; rfl
  split at h
  · next hw => subst hw; rfl
  have ho := opcode_of_decodeOpcode h
  rw [Enc.opcode, Enc.toNat_extract] at ho
  omega

/-- Settles O51: the four bytes stored are the word that the fetch of the next step gives. -/
theorem storeIsSeenByTheNextFetch : Obligations.StoreIsSeenByTheNextFetch := by
  intro s rs1 rs2 imm i hv haddr hal ha hd
  obtain ⟨t, ht, _, hpc, hcfg, hle⟩ := storeFrom_leAt (n := 4) hv rs2 (by decide) (haddr ▸ ha) (haddr ▸ hal)
  have hword : t.leAt t.pc 4 = ((s.readX rs2).setWidth 32).toNat := by
    simpa [haddr, hpc] using hle 0 4 (by omega)
  have hm : Mapped t.cfg t.pc := by
    rw [hcfg, hpc]
    exact mapped_of_mem (dramRegion_mem _) ha
  have hfetch := fetch_of_leAt (hcfg ▸ hv) (hpc ▸ hal) hm hword (low_bits_of_decodeWord hd)
  exact ⟨t, ht, hpc, step_of_fetch hfetch hd⟩

end Sys2Proof.Machine
end

section
/-! PROOFS. The statements of 30_encoding.md. First, for every row, what its word, its decoding and its table numbers have to do with
one another; from that the decoding of encoded words. Then, family by family, the encoding of decoded words; and what each family
requires of a word that it decodes, from which the unlisted words match no row. -/

namespace Sys2Proof.Machine
open Sys2Proof.Laws

/-! ## The rows (30_encoding.md R182) -/

/-- A word that has every fixed bit of a full-word row is that word. -/
theorem selects_fullWord {m : Word32} {i : Instr} (h : decodeWord m = some i) : Selects (fun _ => i) m 0xFFFFFFFF#32 := by
  intro w hw
  obtain rfl : w = m := (BitVec.and_allOnes (x := w)).symm.trans hw
  exact h

theorem selects_ecall : Selects (fun _ => .ecall) 0x00000073#32 0xFFFFFFFF#32 := selects_fullWord decodeWord_ecall
theorem selects_mret : Selects (fun _ => .mret) 0x30200073#32 0xFFFFFFFF#32 := selects_fullWord decodeWord_mret
theorem selects_wfi : Selects (fun _ => .wfi) 0x10500073#32 0xFFFFFFFF#32 := selects_fullWord decodeWord_wfi

/-- What decoder, encoder and table say of the row of `i`, where `mk` reads an instruction of the row from a word. -/
structure RowReads (i : Instr) (mk : Word32 → Instr) : Prop where
  encodes : encode i &&& i.row.2 = i.row.1
  selects : Selects mk i.row.1 i.row.2
  sameRow : ∀ w, (mk w).row = i.row
  readsBack : i.wf = true → mk (encode i) = i

theorem exists_rowReads : ∀ i : Instr, ∃ mk, RowReads i mk
  | .add .. => ⟨_, Row.add .., selects_add, fun _ => rfl, fun _ => by simp [encode]⟩
  | .sub .. => ⟨_, Row.sub .., selects_sub, fun _ => rfl, fun _ => by simp [encode]⟩
  | .sll .. => ⟨_, Row.sll .., selects_sll, fun _ => rfl, fun _ => by simp [encode]⟩
  | .slt .. => ⟨_, Row.slt .., selects_slt, fun _ => rfl, fun _ => by simp [encode]⟩
  | .sltu .. => ⟨_, Row.sltu .., selects_sltu, fun _ => rfl, fun _ => by simp [encode]⟩
  | .xor .. => ⟨_, Row.xor .., selects_xor, fun _ => rfl, fun _ => by simp [encode]⟩
  | .srl .. => ⟨_, Row.srl .., selects_srl, fun _ => rfl, fun _ => by simp [encode]⟩
  | .sra .. => ⟨_, Row.sra .., selects_sra, fun _ => rfl, fun _ => by simp [encode]⟩
  | .or .. => ⟨_, Row.or .., selects_or, fun _ => rfl, fun _ => by simp [encode]⟩
  | .and .. => ⟨_, Row.and .., selects_and, fun _ => rfl, fun _ => by simp [encode]⟩
  | .mul .. => ⟨_, Row.mul .., selects_mul, fun _ => rfl, fun _ => by simp [encode]⟩
  | .mulh .. => ⟨_, Row.mulh .., selects_mulh, fun _ => rfl, fun _ => by simp [encode]⟩
  | .mulhsu .. => ⟨_, Row.mulhsu .., selects_mulhsu, fun _ => rfl, fun _ => by simp [encode]⟩
  | .mulhu .. => ⟨_, Row.mulhu .., selects_mulhu, fun _ => rfl, fun _ => by simp [encode]⟩
  | .div .. => ⟨_, Row.div .., selects_div, fun _ => rfl, fun _ => by simp [encode]⟩
  | .divu .. => ⟨_, Row.divu .., selects_divu, fun _ => rfl, fun _ => by simp [encode]⟩
  | .rem .. => ⟨_, Row.rem .., selects_rem, fun _ => rfl, fun _ => by simp [encode]⟩
  | .remu .. => ⟨_, Row.remu .., selects_remu, fun _ => rfl, fun _ => by simp [encode]⟩
  | .addw .. => ⟨_, Row.addw .., selects_addw, fun _ => rfl, fun _ => by simp [encode]⟩
  | .subw .. => ⟨_, Row.subw .., selects_subw, fun _ => rfl, fun _ => by simp [encode]⟩
  | .sllw .. => ⟨_, Row.sllw .., selects_sllw, fun _ => rfl, fun _ => by simp [encode]⟩
  | .srlw .. => ⟨_, Row.srlw .., selects_srlw, fun _ => rfl, fun _ => by simp [encode]⟩
  | .sraw .. => ⟨_, Row.sraw .., selects_sraw, fun _ => rfl, fun _ => by simp [encode]⟩
  | .mulw .. => ⟨_, Row.mulw .., selects_mulw, fun _ => rfl, fun _ => by simp [encode]⟩
  | .divw .. => ⟨_, Row.divw .., selects_divw, fun _ => rfl, fun _ => by simp [encode]⟩
  | .divuw .. => ⟨_, Row.divuw .., selects_divuw, fun _ => rfl, fun _ => by simp [encode]⟩
  | .remw .. => ⟨_, Row.remw .., selects_remw, fun _ => rfl, fun _ => by simp [encode]⟩
  | .remuw .. => ⟨_, Row.remuw .., selects_remuw, fun _ => rfl, fun _ => by simp [encode]⟩
  | .addi .. => ⟨_, Row.addi .., selects_addi, fun _ => rfl, fun _ => by simp [encode]⟩
  | .slti .. => ⟨_, Row.slti .., selects_slti, fun _ => rfl, fun _ => by simp [encode]⟩
  | .sltiu .. => ⟨_, Row.sltiu .., selects_sltiu, fun _ => rfl, fun _ => by simp [encode]⟩
  | .xori .. => ⟨_, Row.xori .., selects_xori, fun _ => rfl, fun _ => by simp [encode]⟩
  | .ori .. => ⟨_, Row.ori .., selects_ori, fun _ => rfl, fun _ => by simp [encode]⟩
  | .andi .. => ⟨_, Row.andi .., selects_andi, fun _ => rfl, fun _ => by simp [encode]⟩
  | .slli .. => ⟨_, Row.slli .., selects_slli, fun _ => rfl, fun _ => by simp [encode]⟩
  | .srli .. => ⟨_, Row.srli .., selects_srli, fun _ => rfl, fun _ => by simp [encode]⟩
  | .srai .. => ⟨_, Row.srai .., selects_srai, fun _ => rfl, fun _ => by simp [encode]⟩
  | .addiw .. => ⟨_, Row.addiw .., selects_addiw, fun _ => rfl, fun _ => by simp [encode]⟩
  | .slliw .. => ⟨_, Row.slliw .., selects_slliw, fun _ => rfl, fun _ => by simp [encode]⟩
  | .srliw .. => ⟨_, Row.srliw .., selects_srliw, fun _ => rfl, fun _ => by simp [encode]⟩
  | .sraiw .. => ⟨_, Row.sraiw .., selects_sraiw, fun _ => rfl, fun _ => by simp [encode]⟩
  | .lui .. => ⟨_, Row.lui .., selects_lui, fun _ => rfl, fun _ => by simp [encode]⟩
  | .auipc .. => ⟨_, Row.auipc .., selects_auipc, fun _ => rfl, fun _ => by simp [encode]⟩
  | .jal .. => ⟨_, Row.jal .., selects_jal, fun _ => rfl, fun h => by simp [encode, Enc.immJ_jType _ _ h]⟩
  | .jalr .. => ⟨_, Row.jalr .., selects_jalr, fun _ => rfl, fun _ => by simp [encode]⟩
  | .beq .. => ⟨_, Row.beq .., selects_beq, fun _ => rfl, fun h => by simp [encode, Enc.immB_bType _ _ _ _ h]⟩
  | .bne .. => ⟨_, Row.bne .., selects_bne, fun _ => rfl, fun h => by simp [encode, Enc.immB_bType _ _ _ _ h]⟩
  | .blt .. => ⟨_, Row.blt .., selects_blt, fun _ => rfl, fun h => by simp [encode, Enc.immB_bType _ _ _ _ h]⟩
  | .bge .. => ⟨_, Row.bge .., selects_bge, fun _ => rfl, fun h => by simp [encode, Enc.immB_bType _ _ _ _ h]⟩
  | .bltu .. => ⟨_, Row.bltu .., selects_bltu, fun _ => rfl, fun h => by simp [encode, Enc.immB_bType _ _ _ _ h]⟩
  | .bgeu .. => ⟨_, Row.bgeu .., selects_bgeu, fun _ => rfl, fun h => by simp [encode, Enc.immB_bType _ _ _ _ h]⟩
  | .lb .. => ⟨_, Row.lb .., selects_lb, fun _ => rfl, fun _ => by simp [encode]⟩
  | .lh .. => ⟨_, Row.lh .., selects_lh, fun _ => rfl, fun _ => by simp [encode]⟩
  | .lw .. => ⟨_, Row.lw .., selects_lw, fun _ => rfl, fun _ => by simp [encode]⟩
  | .ld .. => ⟨_, Row.ld .., selects_ld, fun _ => rfl, fun _ => by simp [encode]⟩
  | .lbu .. => ⟨_, Row.lbu .., selects_lbu, fun _ => rfl, fun _ => by simp [encode]⟩
  | .lhu .. => ⟨_, Row.lhu .., selects_lhu, fun _ => rfl, fun _ => by simp [encode]⟩
  | .lwu .. => ⟨_, Row.lwu .., selects_lwu, fun _ => rfl, fun _ => by simp [encode]⟩
  | .sb .. => ⟨_, Row.sb .., selects_sb, fun _ => rfl, fun _ => by simp [encode]⟩
  | .sh .. => ⟨_, Row.sh .., selects_sh, fun _ => rfl, fun _ => by simp [encode]⟩
  | .sw .. => ⟨_, Row.sw .., selects_sw, fun _ => rfl, fun _ => by simp [encode]⟩
  | .sd .. => ⟨_, Row.sd .., selects_sd, fun _ => rfl, fun _ => by simp [encode]⟩
  | .fence .. => ⟨_, Row.fence .., selects_fence, fun _ => rfl, fun _ => by simp [encode]⟩
  | .fenceI .. => ⟨_, Row.fenceI .., selects_fenceI, fun _ => rfl, fun _ => by simp [encode]⟩
  | .csrrw .. => ⟨_, Row.csrrw .., selects_csrrw, fun _ => rfl, fun _ => by simp [encode]⟩
  | .csrrs .. => ⟨_, Row.csrrs .., selects_csrrs, fun _ => rfl, fun _ => by simp [encode]⟩
  | .csrrc .. => ⟨_, Row.csrrc .., selects_csrrc, fun _ => rfl, fun _ => by simp [encode]⟩
  | .csrrwi .. => ⟨_, Row.csrrwi .., selects_csrrwi, fun _ => rfl, fun _ => by simp [encode]⟩
  | .csrrsi .. => ⟨_, Row.csrrsi .., selects_csrrsi, fun _ => rfl, fun _ => by simp [encode]⟩
  | .csrrci .. => ⟨_, Row.csrrci .., selects_csrrci, fun _ => rfl, fun _ => by simp [encode]⟩
  | .ecall => ⟨_, Row.ecall, selects_ecall, fun _ => rfl, fun _ => rfl⟩
  | .mret => ⟨_, Row.mret, selects_mret, fun _ => rfl, fun _ => rfl⟩
  | .wfi => ⟨_, Row.wfi, selects_wfi, fun _ => rfl, fun _ => rfl⟩
  | .amoaddW .. => ⟨_, Row.amoaddW .., selects_amoaddW, fun _ => rfl, fun _ => by simp [encode]⟩
  | .amoxorW .. => ⟨_, Row.amoxorW .., selects_amoxorW, fun _ => rfl, fun _ => by simp [encode]⟩
  | .amoandW .. => ⟨_, Row.amoandW .., selects_amoandW, fun _ => rfl, fun _ => by simp [encode]⟩
  | .amoorW .. => ⟨_, Row.amoorW .., selects_amoorW, fun _ => rfl, fun _ => by simp [encode]⟩
  | .amominW .. => ⟨_, Row.amominW .., selects_amominW, fun _ => rfl, fun _ => by simp [encode]⟩
  | .amomaxW .. => ⟨_, Row.amomaxW .., selects_amomaxW, fun _ => rfl, fun _ => by simp [encode]⟩
  | .amominuW .. => ⟨_, Row.amominuW .., selects_amominuW, fun _ => rfl, fun _ => by simp [encode]⟩
  | .amomaxuW .. => ⟨_, Row.amomaxuW .., selects_amomaxuW, fun _ => rfl, fun _ => by simp [encode]⟩
  | .amoaddD .. => ⟨_, Row.amoaddD .., selects_amoaddD, fun _ => rfl, fun _ => by simp [encode]⟩
  | .amoxorD .. => ⟨_, Row.amoxorD .., selects_amoxorD, fun _ => rfl, fun _ => by simp [encode]⟩
  | .amoandD .. => ⟨_, Row.amoandD .., selects_amoandD, fun _ => rfl, fun _ => by simp [encode]⟩
  | .amoorD .. => ⟨_, Row.amoorD .., selects_amoorD, fun _ => rfl, fun _ => by simp [encode]⟩
  | .amominD .. => ⟨_, Row.amominD .., selects_amominD, fun _ => rfl, fun _ => by simp [encode]⟩
  | .amomaxD .. => ⟨_, Row.amomaxD .., selects_amomaxD, fun _ => rfl, fun _ => by simp [encode]⟩
  | .amominuD .. => ⟨_, Row.amominuD .., selects_amominuD, fun _ => rfl, fun _ => by simp [encode]⟩
  | .amomaxuD .. => ⟨_, Row.amomaxuD .., selects_amomaxuD, fun _ => rfl, fun _ => by simp [encode]⟩
  | .lrW .. => ⟨_, Row.lrW .., selects_lrW, fun _ => rfl, fun _ => by simp [encode]⟩
  | .lrD .. => ⟨_, Row.lrD .., selects_lrD, fun _ => rfl, fun _ => by simp [encode]⟩
  | .scW .. => ⟨_, Row.scW .., selects_scW, fun _ => rfl, fun _ => by simp [encode]⟩
  | .scD .. => ⟨_, Row.scD .., selects_scD, fun _ => rfl, fun _ => by simp [encode]⟩
  | .amoswapW .. => ⟨_, Row.amoswapW .., selects_amoswapW, fun _ => rfl, fun _ => by simp [encode]⟩
  | .amoswapD .. => ⟨_, Row.amoswapD .., selects_amoswapD, fun _ => rfl, fun _ => by simp [encode]⟩

/-! ## Decoding what was encoded (30_encoding.md R145, R150 to R154) -/

/-- The bytes of a word that decodes pass the length test, and the byte decoder answers what the word decoder does. -/
theorem decode_bytesOfWord {w : Word32} {i : Instr} (h : decodeWord w = some i) (rest : List Byte) :
    decode (bytesOfWord w ++ rest) = .ok (i, rest) := by
  have hlen : isUncompressed (w.extractLsb' 8 8 ++ w.extractLsb' 0 8) = true := by
    have hlow := low_bits_of_decodeWord h
    rw [isUncompressed, decide_eq_true_eq]
    apply BitVec.eq_of_toNat_eq
    rw [Enc.toNat_extract, Enc.toNat_append, Enc.toNat_extract, Enc.toNat_extract, BitVec.toNat_ofNat]
    omega
  simp only [bytesOfWord, List.cons_append, List.nil_append, decode, if_pos hlen, wordOfBytes_bytesOfWord, h]

/-- Settles O1: the word of `i` has the fixed bits of its row, and the row's reader gives the operands back. -/
theorem decodeOfEncode : Obligations.DecodeOfEncode := by
  intro i hwf
  obtain ⟨mk, hi⟩ := exists_rowReads i
  have hd : decodeWord (encode i) = some i := by rw [hi.selects _ hi.encodes, hi.readsBack hwf]
  exact ⟨hd, decode_bytesOfWord hd⟩

/-! ## Encoding what was decoded (30_encoding.md R145, R175): family by family, the fields are put together again -/

section
variable {w : Word32} {i : Instr}

theorem encode_of_decodeOp (ho : Enc.opcode w = Opc.op) (h : decodeOp w = some i) : encode i = w ∧ i.wf = true := by
  have hw := Enc.rType_of_fields w
  unfold decodeOp at h
  split at h
  case h_19 => cases h
  all_goals next h7 h3 => cases h; rw [h7, h3, ho] at hw; exact ⟨hw, rfl⟩

theorem encode_of_decodeOp32 (ho : Enc.opcode w = Opc.op32) (h : decodeOp32 w = some i) : encode i = w ∧ i.wf = true := by
  have hw := Enc.rType_of_fields w
  unfold decodeOp32 at h
  split at h
  case h_11 => cases h
  all_goals next h7 h3 => cases h; rw [h7, h3, ho] at hw; exact ⟨hw, rfl⟩

theorem encode_of_decodeShift64 (ho : Enc.opcode w = Opc.opImm) (h : decodeShift64 w = some i) :
    encode i = w ∧ i.wf = true := by
  have hw := Enc.iShift64_of_fields w
  unfold decodeShift64 at h
  split at h
  case h_4 => cases h
  all_goals next h6 h3 => cases h; rw [h6, h3, ho] at hw; exact ⟨hw, rfl⟩

theorem encode_of_decodeOpImm (ho : Enc.opcode w = Opc.opImm) (h : decodeOpImm w = some i) : encode i = w ∧ i.wf = true := by
  have hw := Enc.iType_of_fields w
  unfold decodeOpImm at h
  split at h
  case h_7 => exact encode_of_decodeShift64 ho h
  all_goals next h3 => cases h; rw [h3, ho] at hw; exact ⟨hw, rfl⟩

theorem encode_of_decodeShift32 (ho : Enc.opcode w = Opc.opImm32) (h : decodeShift32 w = some i) :
    encode i = w ∧ i.wf = true := by
  have hw := Enc.iShift32_of_fields w
  unfold decodeShift32 at h
  split at h
  case h_4 => cases h
  all_goals next h7 h3 => cases h; rw [h7, h3, ho] at hw; exact ⟨hw, rfl⟩

theorem encode_of_decodeOpImm32 (ho : Enc.opcode w = Opc.opImm32) (h : decodeOpImm32 w = some i) :
    encode i = w ∧ i.wf = true := by
  have hw := Enc.iType_of_fields w
  unfold decodeOpImm32 at h
  split at h
  · next h3 => cases h; rw [h3, ho] at hw; exact ⟨hw, rfl⟩
  · exact encode_of_decodeShift32 ho h

theorem encode_of_decodeLoad (ho : Enc.opcode w = Opc.load) (h : decodeLoad w = some i) : encode i = w ∧ i.wf = true := by
  have hw := Enc.iType_of_fields w
  unfold decodeLoad at h
  split at h
  case h_8 => cases h
  all_goals next h3 => cases h; rw [h3, ho] at hw; exact ⟨hw, rfl⟩

theorem encode_of_decodeStore (ho : Enc.opcode w = Opc.store) (h : decodeStore w = some i) : encode i = w ∧ i.wf = true := by
  have hw := Enc.sType_of_fields w
  unfold decodeStore at h
  split at h
  case h_5 => cases h
  all_goals next h3 => cases h; rw [h3, ho] at hw; exact ⟨hw, rfl⟩

/-- The one check of a branch, that its offset is even, holds of the offset that `Enc.immB` reads. -/
theorem encode_of_decodeBranch (ho : Enc.opcode w = Opc.branch) (h : decodeBranch w = some i) :
    encode i = w ∧ i.wf = true := by
  have hw := Enc.bType_of_fields w
  unfold decodeBranch at h
  split at h
  case h_7 => cases h
  all_goals next h3 => cases h; rw [h3, ho] at hw; exact ⟨hw, Enc.immB_even w⟩

theorem encode_of_decodeMiscMem (ho : Enc.opcode w = Opc.miscMem) (h : decodeMiscMem w = some i) :
    encode i = w ∧ i.wf = true := by
  have hw := Enc.iFence_of_fields w
  unfold decodeMiscMem at h
  split at h
  case h_3 => cases h
  all_goals next h3 => cases h; rw [h3, ho] at hw; exact ⟨hw, rfl⟩

theorem encode_of_decodeSystem (ho : Enc.opcode w = Opc.system) (h : decodeSystem w = some i) :
    encode i = w ∧ i.wf = true := by
  have hw := Enc.iCsr_of_fields w
  unfold decodeSystem at h
  split at h
  case h_7 => cases h
  all_goals next h3 => cases h; rw [h3, ho] at hw; exact ⟨hw, rfl⟩

theorem encode_of_decodeJalr (ho : Enc.opcode w = Opc.jalr) (h : decodeJalr w = some i) : encode i = w ∧ i.wf = true := by
  have hw := Enc.iType_of_fields w
  unfold decodeJalr at h
  split at h
  · next h3 => cases h; rw [h3, ho] at hw; exact ⟨hw, rfl⟩
  · cases h

theorem encode_of_decodeAmo (ho : Enc.opcode w = Opc.amo) (h : decodeAmo w = some i) : encode i = w ∧ i.wf = true := by
  have hw := Enc.aType_of_fields w
  unfold decodeAmo at h
  split at h
  case h_23 => cases h
  all_goals next h5 h3 => cases h; rw [h5, h3, ho] at hw; exact ⟨hw, rfl⟩

/-- LUI, AUIPC and JAL have no sub-opcode; every other opcode has its family above. -/
theorem encode_of_decodeOpcode (h : decodeOpcode w = some i) : encode i = w ∧ i.wf = true := by
  have hu := Enc.uType_of_fields w
  have hj := Enc.jType_of_fields w
  unfold decodeOpcode at h
  split at h <;> rename_i ho
  · exact encode_of_decodeLoad ho h
  · exact encode_of_decodeMiscMem ho h
  · exact encode_of_decodeOpImm ho h
  · cases h; rw [ho] at hu; exact ⟨hu, rfl⟩
  · exact encode_of_decodeOpImm32 ho h
  · exact encode_of_decodeStore ho h
  · exact encode_of_decodeAmo ho h
  · exact encode_of_decodeOp ho h
  · cases h; rw [ho] at hu; exact ⟨hu, rfl⟩
  · exact encode_of_decodeOp32 ho h
  · exact encode_of_decodeBranch ho h
  · exact encode_of_decodeJalr ho h
  · cases h; rw [ho] at hj; exact ⟨hj, Enc.immJ_even w⟩
  · exact encode_of_decodeSystem ho h
  · cases h

/-- A word that decodes is a full word with no operands, or is decoded by its opcode. -/
theorem decodeWord_cases (h : decodeWord w = some i) :
    (w = Opc.mretWord ∧ i = .mret) ∨ (w = Opc.ecallWord ∧ i = .ecall) ∨ (w = Opc.wfiWord ∧ i = .wfi) ∨
      decodeOpcode w = some i := by
  unfold decodeWord at h
  split at h
  · next hw => exact .inl ⟨hw, (Option.some.inj h).symm⟩
  split at h
  · next hw => exact .inr (.inl ⟨hw, (Option.some.inj h).symm⟩)
  split at h
  · next hw => exact .inr (.inr (.inl ⟨hw, (Option.some.inj h).symm⟩))
  exact .inr (.inr (.inr h))

end

/-- Settles O2: the three full words by evaluation, every other word by its opcode's family. -/
theorem encodeOfDecode : Obligations.EncodeOfDecode := by
  intro w i h
  obtain ⟨rfl, rfl⟩ | ⟨rfl, rfl⟩ | ⟨rfl, rfl⟩ | h := decodeWord_cases h
  · exact ⟨rfl, rfl⟩
  · exact ⟨rfl, rfl⟩
  · exact ⟨rfl, rfl⟩
  · exact encode_of_decodeOpcode h

/-! ## The table (30_encoding.md R182) -/

/-- Settles O3: a word that decodes is the encoding of its instruction, which has the fixed bits of the row; and the reader of a
row keeps to the row. -/
theorem rowsSelectExactly : Obligations.RowsSelectExactly := by
  refine fun w => ⟨fun i hd => ?_, fun i hbits => ?_⟩
  · obtain ⟨_, hi⟩ := exists_rowReads i
    obtain ⟨rfl, _⟩ := encodeOfDecode w i hd
    exact hi.encodes
  · obtain ⟨mk, hi⟩ := exists_rowReads i
    exact ⟨mk w, hi.selects w hbits, hi.sameRow w⟩

/-- Settles O5: the decoder evaluated on each word. -/
theorem sampleWordsDecode : Obligations.SampleWordsDecode := by
  unfold Obligations.SampleWordsDecode
  decide

/-! ## Words that match no row (30_encoding.md R161 to R171, R175): what each family requires of a word that it decodes -/

section
variable {w : Word32} {i : Instr}

theorem decodeJalr_listed (h : decodeJalr w = some i) : Enc.funct3 w = 0#3 := by
  unfold decodeJalr at h
  split at h
  · assumption
  · cases h

theorem decodeLoad_listed (h : decodeLoad w = some i) : Enc.funct3 w ≠ 7#3 := by
  unfold decodeLoad at h
  split at h
  case h_8 => cases h
  all_goals next h3 => rw [h3]; decide

theorem decodeStore_listed (h : decodeStore w = some i) : (Enc.funct3 w).toNat < 4 := by
  unfold decodeStore at h
  split at h
  case h_5 => cases h
  all_goals next h3 => rw [h3]; decide

theorem decodeBranch_listed (h : decodeBranch w = some i) : ¬(Enc.funct3 w = 2#3 ∨ Enc.funct3 w = 3#3) := by
  unfold decodeBranch at h
  split at h
  case h_7 => cases h
  all_goals next h3 => rw [h3]; decide

theorem decodeMiscMem_listed (h : decodeMiscMem w = some i) : (Enc.funct3 w).toNat < 2 := by
  unfold decodeMiscMem at h
  split at h
  case h_3 => cases h
  all_goals next h3 => rw [h3]; decide

theorem decodeSystem_listed (h : decodeSystem w = some i) : Enc.funct3 w ≠ 4#3 ∧ Enc.funct3 w ≠ 0#3 := by
  unfold decodeSystem at h
  split at h
  case h_7 => cases h
  all_goals next h3 => rw [h3]; decide

theorem decodeAmo_listed (h : decodeAmo w = some i) :
    Enc.funct3 w ∈ [2#3, 3#3] ∧
      Enc.funct5 w ∈ [0#5, 1#5, 2#5, 3#5, 4#5, 8#5, 12#5, 16#5, 20#5, 24#5, 28#5] := by
  unfold decodeAmo at h
  split at h
  case h_23 => cases h
  all_goals next h5 h3 => rw [h5, h3]; decide

theorem decodeShift64_listed (h : decodeShift64 w = some i) :
    (Enc.funct3 w = 1#3 → Enc.funct6 w = 0#6) ∧ (Enc.funct3 w = 5#3 → Enc.funct6 w ∈ [0#6, 16#6]) := by
  unfold decodeShift64 at h
  split at h
  case h_4 => cases h
  all_goals next h6 h3 => rw [h6, h3]; decide

/-- The rows of OP-IMM outside the shifts have another funct3. -/
theorem decodeOpImm_listed (h : decodeOpImm w = some i) :
    (Enc.funct3 w = 1#3 → Enc.funct6 w = 0#6) ∧ (Enc.funct3 w = 5#3 → Enc.funct6 w ∈ [0#6, 16#6]) := by
  unfold decodeOpImm at h
  split at h
  case h_7 => exact decodeShift64_listed h
  all_goals next h3 => rw [h3]; exact ⟨fun h => absurd h (by decide), fun h => absurd h (by decide)⟩

theorem decodeShift32_listed (h : decodeShift32 w = some i) :
    Enc.funct3 w ∈ [1#3, 5#3] ∧ (Enc.funct3 w = 1#3 → Enc.funct7 w = 0#7) ∧
      (Enc.funct3 w = 5#3 → Enc.funct7 w ∈ [0#7, 32#7]) := by
  unfold decodeShift32 at h
  split at h
  case h_4 => cases h
  all_goals next h7 h3 => rw [h7, h3]; decide

theorem decodeOpImm32_cases (h : decodeOpImm32 w = some i) : Enc.funct3 w = 0#3 ∨ decodeShift32 w = some i := by
  unfold decodeOpImm32 at h
  split at h
  · exact .inl ‹_›
  · exact .inr h

theorem decodeOpImm32_listed (h : decodeOpImm32 w = some i) :
    Enc.funct3 w ∈ [0#3, 1#3, 5#3] ∧ (Enc.funct3 w = 1#3 → Enc.funct7 w = 0#7) ∧
      (Enc.funct3 w = 5#3 → Enc.funct7 w ∈ [0#7, 32#7]) := by
  obtain h3 | h := decodeOpImm32_cases h
  · rw [h3]; exact ⟨by decide, fun h => absurd h (by decide), fun h => absurd h (by decide)⟩
  · obtain ⟨h3, h1, h5⟩ := decodeShift32_listed h
    exact ⟨List.mem_cons_of_mem _ h3, h1, h5⟩

/-- Bit 25 is the low bit of funct7, which is 0 in the funct7 of every W shift (30_encoding.md R165). -/
theorem decodeOpImm32_bit25 (h : decodeOpImm32 w = some i) (h0 : Enc.funct3 w ≠ 0#3) : w.getLsbD 25 = false := by
  have hbit : w.getLsbD 25 = (Enc.funct7 w).getLsbD 0 := by simp [Enc.funct7]
  have h := (decodeOpImm32_cases h).resolve_left h0
  unfold decodeShift32 at h
  split at h
  case h_4 => cases h
  all_goals next h7 _ => rw [hbit, h7]; decide

theorem decodeOp_listed (h : decodeOp w = some i) :
    Enc.funct7 w ∈ [0#7, 1#7, 32#7] ∧ (Enc.funct7 w = 32#7 → Enc.funct3 w ∈ [0#3, 5#3]) := by
  unfold decodeOp at h
  split at h
  case h_19 => cases h
  all_goals next h7 h3 => rw [h7, h3]; decide

theorem decodeOp32_listed (h : decodeOp32 w = some i) :
    Enc.funct7 w ∈ [0#7, 1#7, 32#7] ∧ (Enc.funct7 w = 0#7 → Enc.funct3 w ∈ [0#3, 1#3, 5#3]) ∧
      (Enc.funct7 w = 32#7 → Enc.funct3 w ∈ [0#3, 5#3]) ∧
      (Enc.funct7 w = 1#7 → Enc.funct3 w ∈ [0#3, 4#3, 5#3, 6#3, 7#3]) := by
  unfold decodeOp32 at h
  split at h
  case h_11 => cases h
  all_goals next h7 h3 => rw [h7, h3]; decide

theorem decodeOpcode_listed (h : decodeOpcode w = some i) :
    Enc.opcode w ∈ [0b0000011#7, 0b0001111#7, 0b0010011#7, 0b0010111#7, 0b0011011#7, 0b0100011#7, 0b0101111#7, 0b0110011#7,
      0b0110111#7, 0b0111011#7, 0b1100011#7, 0b1100111#7, 0b1101111#7, 0b1110011#7] := by
  unfold decodeOpcode at h
  split at h
  case h_15 => cases h
  all_goals next ho => rw [ho]; decide

/-- With the opcode SYSTEM, funct3 000 is left to the three full words (30_encoding.md R169). -/
theorem decodeWord_system_listed (ho : Enc.opcode w = 0b1110011#7) (h : decodeWord w = some i) :
    Enc.funct3 w ≠ 4#3 ∧ (Enc.funct3 w = 0#3 → w ∈ [0x00000073#32, 0x30200073#32, 0x10500073#32]) := by
  obtain ⟨rfl, _⟩ | ⟨rfl, _⟩ | ⟨rfl, _⟩ | h := decodeWord_cases h
  · decide
  · decide
  · decide
  · obtain ⟨h4, h0⟩ := decodeSystem_listed (decodeSystem_of_opcode ho ▸ h)
    exact ⟨h4, fun h => absurd h h0⟩

/-- A word matches no row when whatever its decoder decodes is listed and it is not. -/
theorem matchesNoRow_of_unlisted {d : Option Instr} {Listed : Prop} (hw : decodeWord w = d)
    (hlisted : ∀ {i}, d = some i → Listed) (hn : ¬Listed) : MatchesNoRow w :=
  matchesNoRow_of (hw.trans (Option.eq_none_iff_forall_ne_some.mpr fun _ hd => hn (hlisted hd)))

/-- An opcode other than SYSTEM selects its family at once. -/
theorem decodeWord_of_opcode {op : BitVec 7} {d : Option Instr} (ho : Enc.opcode w = op) (hd : decodeOpcode w = d)
    (hs : op ≠ Opc.system := by decide) : decodeWord w = d :=
  (decodeWord_eq (.inl (ho ▸ hs))).trans hd

theorem decodeWord_op (ho : Enc.opcode w = 0b0110011#7) : decodeWord w = decodeOp w :=
  decodeWord_of_opcode ho (decodeOp_of_opcode ho)
theorem decodeWord_op32 (ho : Enc.opcode w = 0b0111011#7) : decodeWord w = decodeOp32 w :=
  decodeWord_of_opcode ho (decodeOp32_of_opcode ho)
theorem decodeWord_opImm (ho : Enc.opcode w = 0b0010011#7) : decodeWord w = decodeOpImm w :=
  decodeWord_of_opcode ho (decodeOpImm_of_opcode ho)
theorem decodeWord_opImm32 (ho : Enc.opcode w = 0b0011011#7) : decodeWord w = decodeOpImm32 w :=
  decodeWord_of_opcode ho (decodeOpImm32_of_opcode ho)
theorem decodeWord_amo (ho : Enc.opcode w = 0b0101111#7) : decodeWord w = decodeAmo w :=
  decodeWord_of_opcode ho (decodeAmo_of_opcode ho)

end

/-- Settles O4: clause by clause, the word lacks what the family of its opcode requires of a word that it decodes. -/
theorem unlistedWordsMatchNoRow : Obligations.UnlistedWordsMatchNoRow := by
  intro w
  refine ⟨?opcode, ?jalr, ?load, ?store, ?branch, ?miscMem, ?system, ?systemZero, ?amoWidth, ?slli, ?srli, ?opImm32, ?bit25,
    ?slliw, ?srliw, ?amo, ?op, ?opAlt, ?op32, ?op32Base, ?op32Alt, ?op32MulDiv⟩
  case opcode =>
    intro hn
    have hs : Enc.opcode w ≠ Opc.system := fun ho => hn (by rw [ho]; decide)
    exact matchesNoRow_of_unlisted (decodeWord_eq (.inl hs)) decodeOpcode_listed hn
  case jalr =>
    exact fun ho hn => matchesNoRow_of_unlisted (decodeWord_of_opcode ho (decodeJalr_of_opcode ho)) decodeJalr_listed hn
  case load =>
    exact fun ho h3 => matchesNoRow_of_unlisted (decodeWord_of_opcode ho (decodeLoad_of_opcode ho)) decodeLoad_listed
      (not_not_intro h3)
  case store =>
    exact fun ho h3 => matchesNoRow_of_unlisted (decodeWord_of_opcode ho (decodeStore_of_opcode ho)) decodeStore_listed
      (Nat.not_lt.mpr h3)
  case branch =>
    exact fun ho h3 => matchesNoRow_of_unlisted (decodeWord_of_opcode ho (decodeBranch_of_opcode ho)) decodeBranch_listed
      (not_not_intro h3)
  case miscMem =>
    exact fun ho h3 => matchesNoRow_of_unlisted (decodeWord_of_opcode ho (decodeMiscMem_of_opcode ho)) decodeMiscMem_listed
      (Nat.not_lt.mpr h3)
  case system =>
    exact fun ho h3 => matchesNoRow_of_unlisted rfl (decodeWord_system_listed ho) fun ⟨h4, _⟩ => h4 h3
  case systemZero =>
    exact fun ho h3 hn => matchesNoRow_of_unlisted rfl (decodeWord_system_listed ho) fun ⟨_, hw⟩ => hn (hw h3)
  case amoWidth =>
    exact fun ho hn => matchesNoRow_of_unlisted (decodeWord_amo ho) decodeAmo_listed fun ⟨h3, _⟩ => hn h3
  case slli =>
    exact fun ho h3 hn => matchesNoRow_of_unlisted (decodeWord_opImm ho) decodeOpImm_listed fun ⟨h1, _⟩ => hn (h1 h3)
  case srli =>
    exact fun ho h3 hn => matchesNoRow_of_unlisted (decodeWord_opImm ho) decodeOpImm_listed fun ⟨_, h5⟩ => hn (h5 h3)
  case opImm32 =>
    exact fun ho hn => matchesNoRow_of_unlisted (decodeWord_opImm32 ho) decodeOpImm32_listed fun ⟨h3, _⟩ => hn h3
  case bit25 =>
    exact fun ho h0 h25 => matchesNoRow_of_unlisted (decodeWord_opImm32 ho) (fun hd => decodeOpImm32_bit25 hd h0)
      (ne_false_of_eq_true h25)
  case slliw =>
    exact fun ho h3 hn => matchesNoRow_of_unlisted (decodeWord_opImm32 ho) decodeOpImm32_listed fun ⟨_, h1, _⟩ => hn (h1 h3)
  case srliw =>
    exact fun ho h3 hn => matchesNoRow_of_unlisted (decodeWord_opImm32 ho) decodeOpImm32_listed fun ⟨_, _, h5⟩ => hn (h5 h3)
  case amo =>
    exact fun ho hn => matchesNoRow_of_unlisted (decodeWord_amo ho) decodeAmo_listed fun ⟨_, h5⟩ => hn h5
  case op =>
    exact fun ho hn => matchesNoRow_of_unlisted (decodeWord_op ho) decodeOp_listed fun ⟨h7, _⟩ => hn h7
  case opAlt =>
    exact fun ho h7 hn => matchesNoRow_of_unlisted (decodeWord_op ho) decodeOp_listed fun ⟨_, h3⟩ => hn (h3 h7)
  case op32 =>
    exact fun ho hn => matchesNoRow_of_unlisted (decodeWord_op32 ho) decodeOp32_listed fun ⟨h7, _⟩ => hn h7
  case op32Base =>
    exact fun ho h7 hn => matchesNoRow_of_unlisted (decodeWord_op32 ho) decodeOp32_listed fun ⟨_, h0, _⟩ => hn (h0 h7)
  case op32Alt =>
    exact fun ho h7 hn => matchesNoRow_of_unlisted (decodeWord_op32 ho) decodeOp32_listed fun ⟨_, _, h32, _⟩ => hn (h32 h7)
  case op32MulDiv =>
    exact fun ho h7 hn => matchesNoRow_of_unlisted (decodeWord_op32 ho) decodeOp32_listed fun ⟨_, _, _, h1⟩ => hn (h1 h7)

end Sys2Proof.Machine
end

section
/-! PROOFS. The statements of 40_op_register.md. First, for any R-type instruction that ends in `writeResult`, what is left to show:
that the value written is the one of the statement. Then each operation of the bit vectors as the integer operation of its rule. -/

namespace Sys2Proof.Machine

/-! ## The shape of a register operation (40_op_register.md R200) -/

/-- An R-type instruction whose row is selected, and which writes the value `f x[rs1] x[rs2]` and retires. -/
theorem computesR_of_writeResult {mk : RegIdx → RegIdx → RegIdx → Instr} {mtch mask : Word32} {f : Word → Word → Word}
    {value : State → RegIdx → RegIdx → Word}
    (hrow : Selects (fun w => mk (Enc.rd w) (Enc.rs1 w) (Enc.rs2 w)) mtch mask)
    (hexec : ∀ s rd rs1 rs2, exec (mk rd rs1 rs2) s = writeResult rd (value s rs1 rs2) s)
    (hvalue : ∀ s rs1 rs2, value s rs1 rs2 = f (s.readX rs1) (s.readX rs2)) : ComputesR mk mtch mask f := by
  refine ⟨hrow, fun s rd rs1 rs2 => ?_⟩
  rw [hexec, hvalue]
  exact writeResult_retires rd _ s

/-! ## The values, as integers modulo 2^64 -/

/-- R201: the carry out of bit 63 is lost. -/
theorem add_eq_wordOf (a b : Word) : a + b = wordOf (a.toNat + b.toNat) :=
  eq_wordOf (by rw [BitVec.toNat_add]; omega)

/-- R202: the difference of the unsigned readings may be negative. -/
theorem sub_eq_wordOf (a b : Word) : a - b = wordOf ((a.toNat : Int) - b.toNat) := by
  have hb := b.isLt
  exact eq_wordOf (by rw [BitVec.toNat_sub]; omega)

/-- R203: the bits shifted out are the multiples of 2^64 lost. -/
theorem shiftLeft_eq_wordOf (a : Word) (n : Nat) : a <<< n = wordOf (a.toNat * 2 ^ n : Nat) := by
  rw [wordOf_natCast]
  apply BitVec.eq_of_toNat_eq
  rw [BitVec.toNat_shiftLeft, Nat.shiftLeft_eq, BitVec.toNat_ofNat]

/-- R207: shifting zeros in divides the unsigned reading. -/
theorem ushiftRight_eq_wordOf (a : Word) (n : Nat) : a >>> n = wordOf (a.toNat / 2 ^ n : Nat) := by
  rw [← Nat.shiftRight_eq_div_pow, ← BitVec.toNat_ushiftRight, wordOf_toNat]

/-- R208: shifting the sign in divides the signed reading, rounding down. -/
theorem sshiftRight_eq_wordOf (a : Word) (n : Nat) : a.sshiftRight n = wordOf (signedN 64 a / 2 ^ n) := by
  have h : a.toInt / 2 ^ n = (a.sshiftRight n).toInt := by
    rw [BitVec.toInt_sshiftRight, Int.shiftRight_eq_div_pow, Int.natCast_pow, Nat.cast_ofNat]
  rw [signedN_64, h, wordOf_toInt]

/-- The flag of a decided comparison is its bit (00_scope.md R20). -/
theorem flagWord_decide (p : Prop) [Decidable p] : flagWord (decide p) = bit p := by
  by_cases h : p <;> simp [flagWord, bit, h]

/-- R204: the signed readings are compared. -/
theorem flagWord_ltSigned (a b : Word) : flagWord (ltSigned a b) = bit (signedN 64 a < signedN 64 b) := by
  simp only [signedN_64]
  exact flagWord_decide (a.toInt < b.toInt)

/-- R205: the unsigned readings are compared. -/
theorem flagWord_ltUnsigned (a b : Word) : flagWord (ltUnsigned a b) = bit (a.toNat < b.toNat) :=
  flagWord_decide (a.toNat < b.toNat)

/-! ## The statements -/

/-- Settles O6: each of the five writes the integer of its rule modulo 2^64, and a shift takes the low six bits of `x[rs2]`. -/
theorem addSubShiftResults : Obligations.AddSubShiftResults := by
  refine ⟨?add, ?sub, ?sll, ?srl, ?sra⟩
  case add => exact computesR_of_writeResult selects_add (fun _ _ _ _ => rfl) fun _ _ _ => add_eq_wordOf _ _
  case sub => exact computesR_of_writeResult selects_sub (fun _ _ _ _ => rfl) fun _ _ _ => sub_eq_wordOf _ _
  case sll =>
    exact computesR_of_writeResult selects_sll (fun _ _ _ _ => rfl) fun _ _ _ => by
      rw [shamt6_eq, shiftLeft_eq_wordOf]
  case srl =>
    exact computesR_of_writeResult selects_srl (fun _ _ _ _ => rfl) fun _ _ _ => by
      rw [shamt6_eq, ushiftRight_eq_wordOf]
  case sra =>
    exact computesR_of_writeResult selects_sra (fun _ _ _ _ => rfl) fun _ _ _ => by
      rw [shamt6_eq, sshiftRight_eq_wordOf]

/-- Settles O7: the comparisons write the bit of the reading they compare, and the bitwise operations are the machine's own. -/
theorem compareAndLogicResults : Obligations.CompareAndLogicResults := by
  refine ⟨?slt, ?sltu, ?xor, ?or, ?and⟩
  case slt => exact computesR_of_writeResult selects_slt (fun _ _ _ _ => rfl) fun _ _ _ => flagWord_ltSigned _ _
  case sltu => exact computesR_of_writeResult selects_sltu (fun _ _ _ _ => rfl) fun _ _ _ => flagWord_ltUnsigned _ _
  case xor => exact computesR_of_writeResult selects_xor (fun _ _ _ _ => rfl) fun _ _ _ => rfl
  case or => exact computesR_of_writeResult selects_or (fun _ _ _ _ => rfl) fun _ _ _ => rfl
  case and => exact computesR_of_writeResult selects_and (fun _ _ _ _ => rfl) fun _ _ _ => rfl

end Sys2Proof.Machine
end

section
/-! PROOFS. The statements of 41_op_muldiv.md, and the divisions of 42_op32_word.md. First the halves of a product; then, at any
width, the divisions of R220 over the integers that their operands stand for, and the division law of each pair; then what the
instructions write. -/

namespace Sys2Proof.Machine

/-! ## The product (41_op_muldiv.md R221 to R223) -/

/-- R221: the low half of the product. -/
theorem mul_eq_wordOf (a b : Word) : a * b = wordOf (a.toNat * b.toNat : Nat) := by
  rw [wordOf_natCast, BitVec.ofNat_mul, BitVec.ofNat_toNat, BitVec.ofNat_toNat, BitVec.setWidth_eq, BitVec.setWidth_eq]

/-- Bits 127:64 of a 128-bit integer are its quotient by 2^64, rounded down. -/
theorem ofInt_highHalf (v : Int) : (BitVec.ofInt 128 v).extractLsb' 64 64 = wordOf (v / 2 ^ 64) := by
  apply eq_wordOf
  rw [Enc.toNat_extract, BitVec.toNat_ofInt]
  omega

/-- R222: the high half of the exact signed product. -/
theorem mulHighSigned_eq_wordOf (a b : Word) : mulHighSigned a b = wordOf (signedN 64 a * signedN 64 b / 2 ^ 64) := by
  rw [signedN_64, signedN_64, ← ofInt_highHalf, BitVec.ofInt_mul]
  rfl

/-- R223: the high half of the exact unsigned product. -/
theorem mulHighUnsigned_eq_wordOf (a b : Word) : mulHighUnsigned a b = wordOf (a.toNat * b.toNat / 2 ^ 64 : Nat) := by
  rw [Int.natCast_ediv, Int.natCast_pow, Nat.cast_ofNat, ← ofInt_highHalf, BitVec.ofInt_natCast, BitVec.ofNat_mul,
    BitVec.ofNat_toNat, BitVec.ofNat_toNat]
  rfl

/-! ## The divisions over the integers (41_op_muldiv.md R220, R224 to R228) -/

section
variable {w : Nat}

theorem eq_zero_iff_toInt {b : BitVec w} : b = 0#w ↔ b.toInt = 0 := by
  rw [← BitVec.toInt_inj, BitVec.toInt_zero]

theorem eq_zero_iff_toNat {b : BitVec w} : b = 0#w ↔ b.toNat = 0 := by
  rw [← BitVec.toNat_inj, BitVec.toNat_zero]

theorem eq_allOnes_iff_toInt (hw : 0 < w) {b : BitVec w} : b = BitVec.allOnes w ↔ b.toInt = -1 := by
  rw [← BitVec.toInt_inj, BitVec.toInt_allOnes, if_pos hw]

theorem toInt_intMin_of_pos (hw : 0 < w) : (BitVec.intMin w).toInt = -2 ^ (w - 1) := by
  rw [BitVec.toInt_intMin, Nat.mod_eq_of_lt (Nat.pow_lt_pow_right (by decide) (by omega))]
  push_cast
  rfl

theorem eq_intMin_iff_toInt (hw : 0 < w) {a : BitVec w} : a = BitVec.intMin w ↔ a.toInt = -2 ^ (w - 1) := by
  rw [← BitVec.toInt_inj, toInt_intMin_of_pos hw]

theorem allOnes_eq_ofInt : BitVec.allOnes w = BitVec.ofInt w (-1) := by
  rw [BitVec.ofInt_neg, ← BitVec.neg_one_eq_allOnes]
  rfl

theorem intMin_eq_ofInt (hw : 0 < w) : BitVec.intMin w = BitVec.ofInt w (-2 ^ (w - 1)) := by
  rw [← toInt_intMin_of_pos hw, BitVec.ofInt_toInt]

theorem divSigned_eq_ofInt (hw : 0 < w) (a b : BitVec w) :
    divSigned a b = if b.toInt = 0 then BitVec.ofInt w (-1)
      else if a.toInt = -2 ^ (w - 1) ∧ b.toInt = -1 then BitVec.ofInt w (-2 ^ (w - 1))
      else BitVec.ofInt w (a.toInt.tdiv b.toInt) := by
  unfold divSigned
  simp only [eq_zero_iff_toInt, eq_intMin_iff_toInt hw, eq_allOnes_iff_toInt hw]
  rw [allOnes_eq_ofInt, intMin_eq_ofInt hw]

theorem remSigned_eq_ofInt (hw : 0 < w) (a b : BitVec w) :
    remSigned a b = if b.toInt = 0 then a
      else if a.toInt = -2 ^ (w - 1) ∧ b.toInt = -1 then 0#w
      else BitVec.ofInt w (a.toInt - b.toInt * a.toInt.tdiv b.toInt) := by
  unfold remSigned
  simp only [eq_zero_iff_toInt, eq_intMin_iff_toInt hw, eq_allOnes_iff_toInt hw]

theorem divUnsigned_eq_ofInt (a b : BitVec w) :
    divUnsigned a b = if b.toNat = 0 then BitVec.ofInt w (-1) else BitVec.ofInt w (a.toNat / b.toNat : Nat) := by
  unfold divUnsigned
  simp only [eq_zero_iff_toNat]
  rw [allOnes_eq_ofInt, BitVec.ofInt_natCast]

theorem remUnsigned_eq_ofInt (a b : BitVec w) :
    remUnsigned a b = if b.toNat = 0 then a else BitVec.ofInt w (a.toNat % b.toNat : Nat) := by
  unfold remUnsigned
  simp only [eq_zero_iff_toNat]
  rw [BitVec.ofInt_natCast]

/-! ## The division law (41_op_muldiv.md R220) -/

/-- In the overflow case the divisor is -1 and negates the least value to itself. -/
theorem mul_divSigned_add_remSigned (a b : BitVec w) : b * divSigned a b + remSigned a b = a := by
  unfold divSigned remSigned
  by_cases hzero : b = 0#w
  · rw [if_pos hzero, if_pos hzero, hzero, BitVec.zero_mul, BitVec.zero_add]
  rw [if_neg hzero, if_neg hzero]
  by_cases hover : a = BitVec.intMin w ∧ b = BitVec.allOnes w
  · obtain ⟨ha, hb⟩ := hover
    rw [if_pos ⟨ha, hb⟩, if_pos ⟨ha, hb⟩, ha, hb, ← BitVec.neg_one_eq_allOnes, BitVec.neg_mul, BitVec.one_mul,
      BitVec.neg_intMin, BitVec.add_zero]
  · rw [if_neg hover, if_neg hover]
    calc b * BitVec.ofInt w (a.toInt.tdiv b.toInt) + BitVec.ofInt w (a.toInt - b.toInt * a.toInt.tdiv b.toInt)
        = BitVec.ofInt w (b.toInt * a.toInt.tdiv b.toInt + (a.toInt - b.toInt * a.toInt.tdiv b.toInt)) := by
          rw [BitVec.ofInt_add, BitVec.ofInt_mul, BitVec.ofInt_toInt]
      _ = a := by rw [add_sub_cancel, BitVec.ofInt_toInt]

/-- The corner cases of the signed remainder are those of the remainder of the integers. -/
theorem remSigned_eq_srem (hw : 0 < w) (a b : BitVec w) : remSigned a b = a.srem b := by
  unfold remSigned
  by_cases hzero : b = 0#w
  · rw [if_pos hzero, hzero, BitVec.srem_zero]
  rw [if_neg hzero]
  by_cases hover : a = BitVec.intMin w ∧ b = BitVec.allOnes w
  · obtain ⟨ha, hb⟩ := hover
    rw [if_pos ⟨ha, hb⟩, ← BitVec.toInt_inj, BitVec.toInt_srem, (eq_allOnes_iff_toInt hw).mp hb, Int.tmod_neg, Int.tmod_one,
      BitVec.toInt_zero]
  · rw [if_neg hover, ← Int.tmod_def, ← BitVec.toInt_srem, BitVec.ofInt_toInt]

theorem remSigned_natAbs_lt (hw : 0 < w) (a : BitVec w) {b : BitVec w} (hb : b ≠ 0#w) :
    (remSigned a b).toInt.natAbs < b.toInt.natAbs := by
  rw [remSigned_eq_srem hw, BitVec.toInt_srem, Int.natAbs_tmod]
  exact Nat.mod_lt _ (Int.natAbs_pos.mpr (mt eq_zero_iff_toInt.mpr hb))

theorem mul_divUnsigned_add_remUnsigned (a b : BitVec w) : b * divUnsigned a b + remUnsigned a b = a := by
  unfold divUnsigned remUnsigned
  by_cases hzero : b = 0#w
  · rw [if_pos hzero, if_pos hzero, hzero, BitVec.zero_mul, BitVec.zero_add]
  · rw [if_neg hzero, if_neg hzero]
    calc b * BitVec.ofNat w (a.toNat / b.toNat) + BitVec.ofNat w (a.toNat % b.toNat)
        = BitVec.ofNat w (b.toNat * (a.toNat / b.toNat) + a.toNat % b.toNat) := by
          rw [BitVec.ofNat_add, BitVec.ofNat_mul, BitVec.ofNat_toNat, BitVec.setWidth_eq]
      _ = a := by rw [Nat.div_add_mod, BitVec.ofNat_toNat, BitVec.setWidth_eq]

theorem remUnsigned_toNat_lt (a : BitVec w) {b : BitVec w} (hb : b ≠ 0#w) : (remUnsigned a b).toNat < b.toNat := by
  have hlt : a.toNat % b.toNat < b.toNat := Nat.mod_lt _ (Nat.pos_of_ne_zero (mt eq_zero_iff_toNat.mpr hb))
  rwa [remUnsigned, if_neg hb, BitVec.toNat_ofNat, Nat.mod_eq_of_lt (hlt.trans b.isLt)]

end

/-! ## What the instructions write -/

/-- What `writeResult` leaves in a register other than `x0`. -/
theorem writeResult_readX {rd : RegIdx} (hrd : rd ≠ 0#5) (v : Word) (s : State) :
    ∃ t, writeResult rd v s = .next t ∧ t.readX rd = v := by
  obtain ⟨t, ht, ⟨_, hregs⟩, _⟩ := writeResult_retires rd v s
  exact ⟨t, ht, (hregs rd hrd).trans (if_pos rfl)⟩

/-- A "W" instruction writes the sign extension of an integer's low 32 bits (42_op32_word.md R240). -/
theorem sext32_ofInt (v : Int) : sext32 (BitVec.ofInt 32 v) = sextN 32 v := (sextN_eq (by decide) v).symm

theorem sext32_readX32 (s : State) (r : RegIdx) : sext32 (s.readX32 r) = sextN 32 (unsignedN 32 (s.readX r)) := by
  rw [← readX32_toNat, ← sext32_ofInt, BitVec.ofInt_natCast, BitVec.ofNat_toNat, BitVec.setWidth_eq]

/-! ## The statements -/

/-- Settles O8: the low half of the product modulo 2^64, the high halves as quotients of the exact products by 2^64. -/
theorem multiplyResults : Obligations.MultiplyResults := by
  refine ⟨?mul, ?mulh, ?mulhu⟩
  case mul => exact computesR_of_writeResult selects_mul (fun _ _ _ _ => rfl) fun _ _ _ => mul_eq_wordOf _ _
  case mulh => exact computesR_of_writeResult selects_mulh (fun _ _ _ _ => rfl) fun _ _ _ => mulHighSigned_eq_wordOf _ _
  case mulhu => exact computesR_of_writeResult selects_mulhu (fun _ _ _ _ => rfl) fun _ _ _ => mulHighUnsigned_eq_wordOf _ _

/-- Settles O9: the divisions over the integers at 64 bits, where `wordOf` is the value of an integer. -/
theorem divideResults : Obligations.DivideResults := by
  refine ⟨?div, ?divu, ?rem, ?remu⟩
  case div =>
    exact computesR_of_writeResult selects_div (fun _ _ _ _ => rfl) fun _ _ _ => by
      simp only [signedN_64]; exact divSigned_eq_ofInt (by decide) _ _
  case divu => exact computesR_of_writeResult selects_divu (fun _ _ _ _ => rfl) fun _ _ _ => divUnsigned_eq_ofInt _ _
  case rem =>
    exact computesR_of_writeResult selects_rem (fun _ _ _ _ => rfl) fun _ _ _ => by
      simp only [signedN_64]; exact remSigned_eq_ofInt (by decide) _ _
  case remu => exact computesR_of_writeResult selects_remu (fun _ _ _ _ => rfl) fun _ _ _ => remUnsigned_eq_ofInt _ _

/-- Settles O10: the division law and the bound of the remainder, for the values that the two instructions write. -/
theorem quotientAndRemainderAgree : Obligations.QuotientAndRemainderAgree := by
  intro s rd rs1 rs2 hrd
  refine ⟨?signed, ?unsigned⟩
  case signed =>
    obtain ⟨t, ht, hq⟩ := writeResult_readX hrd (divSigned (s.readX rs1) (s.readX rs2)) s
    obtain ⟨u, hu, hr⟩ := writeResult_readX hrd (remSigned (s.readX rs1) (s.readX rs2)) s
    refine ⟨t, u, ht, hu, ?_, fun hb => ?_⟩
    · rw [hq, hr, mul_divSigned_add_remSigned]
    · rw [hr]; exact remSigned_natAbs_lt (by decide) _ hb
  case unsigned =>
    obtain ⟨t, ht, hq⟩ := writeResult_readX hrd (divUnsigned (s.readX rs1) (s.readX rs2)) s
    obtain ⟨u, hu, hr⟩ := writeResult_readX hrd (remUnsigned (s.readX rs1) (s.readX rs2)) s
    refine ⟨t, u, ht, hu, ?_, fun hb => ?_⟩
    · rw [hq, hr, mul_divUnsigned_add_remUnsigned]
    · rw [hr]; exact remUnsigned_toNat_lt _ hb

/-- Settles O12: the divisions over the integers at 32 bits, each case sign-extended. -/
theorem wordDivideResults : Obligations.WordDivideResults := by
  refine ⟨?divw, ?divuw, ?remw, ?remuw⟩
  case divw =>
    exact computesR_of_writeResult selects_divw (fun _ _ _ _ => rfl) fun _ _ _ => by
      simp only [divSigned_eq_ofInt (w := 32) (by decide), apply_ite sext32, sext32_ofInt, readX32_toInt]
  case divuw =>
    exact computesR_of_writeResult selects_divuw (fun _ _ _ _ => rfl) fun _ _ _ => by
      simp only [divUnsigned_eq_ofInt, apply_ite sext32, sext32_ofInt, readX32_toNat]
  case remw =>
    exact computesR_of_writeResult selects_remw (fun _ _ _ _ => rfl) fun _ _ _ => by
      simp only [remSigned_eq_ofInt (w := 32) (by decide), apply_ite sext32, sext32_ofInt, sext32_readX32, readX32_toInt]
      rfl
  case remuw =>
    exact computesR_of_writeResult selects_remuw (fun _ _ _ _ => rfl) fun _ _ _ => by
      simp only [remUnsigned_eq_ofInt, apply_ite sext32, sext32_ofInt, sext32_readX32, readX32_toNat]

/-- Settles O34: the meaning of each of the eight is the taking of its exception. -/
theorem alwaysRaisingInstructions : Obligations.AlwaysRaisingInstructions := by
  intro s aq rl rd rs1 rs2
  exact ⟨raise_traps _ s, raise_traps _ s, raise_traps _ s, raise_traps _ s, raise_traps _ s, raise_traps _ s,
    raise_traps _ s, raise_traps _ s⟩

end Sys2Proof.Machine
end

section
/-! PROOFS. The remaining statements of 42_op32_word.md. First the 32-bit operations as integer operations whose result is
sign-extended; then what holds of every instruction that writes a 32-bit function of the low halves of its operands. -/

namespace Sys2Proof.Machine

/-! ## The values, as sign-extended integers modulo 2^32 (42_op32_word.md R242 to R247) -/

section
variable (a b : Word32)

/-- R242: the carry out of bit 31 is lost. -/
theorem sext32_add : sext32 (a + b) = sextN 32 (a.toNat + b.toNat) :=
  sext32_eq (by rw [BitVec.toNat_add]; omega)

/-- R243: the difference of the unsigned readings may be negative. -/
theorem sext32_sub : sext32 (a - b) = sextN 32 ((a.toNat : Int) - b.toNat) := by
  have hb := b.isLt
  exact sext32_eq (by rw [BitVec.toNat_sub]; omega)

/-- R247: the low half of the product. -/
theorem sext32_mul : sext32 (a * b) = sextN 32 (a.toNat * b.toNat : Nat) :=
  sext32_eq (by rw [BitVec.toNat_mul]; omega)

/-- R244: the bits shifted out are the multiples of 2^32 lost. -/
theorem sext32_shiftLeft (n : Nat) : sext32 (a <<< n) = sextN 32 (a.toNat * 2 ^ n : Nat) :=
  sext32_eq (by rw [BitVec.toNat_shiftLeft, Nat.shiftLeft_eq]; omega)

/-- R245: zeros come in at bit 31, and the sign extension follows the shift. -/
theorem sext32_ushiftRight (n : Nat) : sext32 (a >>> n) = sextN 32 (a.toNat / 2 ^ n : Nat) :=
  sext32_eq (by rw [BitVec.toNat_ushiftRight, Nat.shiftRight_eq_div_pow])

/-- R246: copies of bit 31 come in, so the signed reading is divided, rounding down. -/
theorem sext32_sshiftRight (n : Nat) : sext32 (a.sshiftRight n) = sextN 32 (a.toInt / 2 ^ n) := by
  rw [sext32_eq_toInt, BitVec.toInt_sshiftRight, Int.shiftRight_eq_div_pow, Int.natCast_pow, Nat.cast_ofNat]

end

/-! ## Functions of the low halves (42_op32_word.md R240, R241) -/

/-- The instruction writes the sign extension of `op` of the low halves of its operands, and reads nothing else for it. -/
def ComputesOnLowHalves (mk : RegIdx → RegIdx → RegIdx → Instr) (op : Word32 → Word32 → Word32) : Prop :=
  ∀ s rd rs1 rs2, exec (mk rd rs1 rs2) s = writeResult32 rd (op (s.readX32 rs1) (s.readX32 rs2)) s

/-- R241: the amount of a 32-bit shift lies in the low half of `x[rs2]`. -/
theorem shamt5_eq_readX32 (s : State) (r : RegIdx) : s.shamt5 r = (s.readX32 r).toNat % 32 := by
  rw [shamt5_eq, readX32_toNat, unsignedN]
  omega

/-- A 32-bit shift takes its amount from the low half of `x[rs2]`, like the other operations. -/
theorem computesOnLowHalves_of_shamt5 {mk : RegIdx → RegIdx → RegIdx → Instr} {shift : Word32 → Nat → Word32}
    (hexec : ∀ s rd rs1 rs2, exec (mk rd rs1 rs2) s = writeResult32 rd (shift (s.readX32 rs1) (s.shamt5 rs2)) s) :
    ComputesOnLowHalves mk fun a b => shift a (b.toNat % 32) := by
  intro s rd rs1 rs2
  rw [hexec, shamt5_eq_readX32]

theorem readX32_congr {s s' : State} {r : RegIdx} (h : unsignedN 32 (s.readX r) = unsignedN 32 (s'.readX r)) :
    s.readX32 r = s'.readX32 r :=
  BitVec.eq_of_toNat_eq (by rw [readX32_toNat, readX32_toNat, h])

/-- A sign-extended 32-bit value is the sign extension of its own low half. -/
theorem sext32_eq_sextN_lowHalf (r : Word32) : sext32 r = sextN 32 (unsignedN 32 (sext32 r)) := by
  have hlow := wrapN_emod (n := 32) r.toInt
  have hword := toNat_wordOf (wrapN 32 r.toInt)
  rw [sext32_eq_toInt]
  apply sextN_congr
  rw [unsignedN, sextN]
  omega

/-- Noninterference for one instruction; the form of its result is that of R240. -/
theorem ComputesOnLowHalves.ignores_upperHalves {mk : RegIdx → RegIdx → RegIdx → Instr} {op : Word32 → Word32 → Word32}
    (hmk : ComputesOnLowHalves mk op) (s s' : State) (rd rs1 rs2 : RegIdx) (hrd : rd ≠ 0#5)
    (h1 : unsignedN 32 (s.readX rs1) = unsignedN 32 (s'.readX rs1))
    (h2 : unsignedN 32 (s.readX rs2) = unsignedN 32 (s'.readX rs2)) :
    ∃ t t', exec (mk rd rs1 rs2) s = .next t ∧ exec (mk rd rs1 rs2) s' = .next t' ∧ t.readX rd = t'.readX rd ∧
      t.readX rd = sextN 32 (unsignedN 32 (t.readX rd)) := by
  rw [hmk s, hmk s', ← readX32_congr h1, ← readX32_congr h2]
  obtain ⟨t, ht, hv⟩ := writeResult_readX hrd (sext32 (op (s.readX32 rs1) (s.readX32 rs2))) s
  obtain ⟨t', ht', hv'⟩ := writeResult_readX hrd (sext32 (op (s.readX32 rs1) (s.readX32 rs2))) s'
  refine ⟨t, t', ht, ht', hv.trans hv'.symm, ?_⟩
  rw [hv]
  exact sext32_eq_sextN_lowHalf _

/-! ## The statements -/

/-- Settles O11: each of the six writes the sign extension of the integer of its rule, and a shift takes the low five bits of
`x[rs2]`. -/
theorem wordArithmeticResults : Obligations.WordArithmeticResults := by
  refine ⟨?addw, ?subw, ?sllw, ?srlw, ?sraw, ?mulw⟩
  case addw =>
    exact computesR_of_writeResult selects_addw (fun _ _ _ _ => rfl) fun _ _ _ => by
      rw [sext32_add, readX32_toNat, readX32_toNat]
  case subw =>
    exact computesR_of_writeResult selects_subw (fun _ _ _ _ => rfl) fun _ _ _ => by
      rw [sext32_sub, readX32_toNat, readX32_toNat]
  case sllw =>
    exact computesR_of_writeResult selects_sllw (fun _ _ _ _ => rfl) fun _ _ _ => by
      rw [sext32_shiftLeft, readX32_toNat, shamt5_eq]
  case srlw =>
    exact computesR_of_writeResult selects_srlw (fun _ _ _ _ => rfl) fun _ _ _ => by
      rw [sext32_ushiftRight, readX32_toNat, shamt5_eq]
  case sraw =>
    exact computesR_of_writeResult selects_sraw (fun _ _ _ _ => rfl) fun _ _ _ => by
      rw [sext32_sshiftRight, readX32_toInt, shamt5_eq]
  case mulw =>
    exact computesR_of_writeResult selects_mulw (fun _ _ _ _ => rfl) fun _ _ _ => by
      rw [sext32_mul, readX32_toNat, readX32_toNat]

/-- Settles O13: each of the ten computes on the low halves. -/
theorem wordOpsIgnoreUpperHalves : Obligations.WordOpsIgnoreUpperHalves := by
  have haddw : ComputesOnLowHalves .addw fun a b => a + b := fun _ _ _ _ => rfl
  have hsubw : ComputesOnLowHalves .subw fun a b => a - b := fun _ _ _ _ => rfl
  have hsllw := computesOnLowHalves_of_shamt5 (mk := .sllw) (shift := fun a n => a <<< n) fun _ _ _ _ => rfl
  have hsrlw := computesOnLowHalves_of_shamt5 (mk := .srlw) (shift := fun a n => a >>> n) fun _ _ _ _ => rfl
  have hsraw := computesOnLowHalves_of_shamt5 (mk := .sraw) (shift := BitVec.sshiftRight) fun _ _ _ _ => rfl
  have hmulw : ComputesOnLowHalves .mulw fun a b => a * b := fun _ _ _ _ => rfl
  have hdivw : ComputesOnLowHalves .divw divSigned := fun _ _ _ _ => rfl
  have hdivuw : ComputesOnLowHalves .divuw divUnsigned := fun _ _ _ _ => rfl
  have hremw : ComputesOnLowHalves .remw remSigned := fun _ _ _ _ => rfl
  have hremuw : ComputesOnLowHalves .remuw remUnsigned := fun _ _ _ _ => rfl
  unfold Obligations.WordOpsIgnoreUpperHalves
  simp only [List.forall_mem_cons]
  exact ⟨haddw.ignores_upperHalves, hsubw.ignores_upperHalves, hsllw.ignores_upperHalves, hsrlw.ignores_upperHalves,
    hsraw.ignores_upperHalves, hmulw.ignores_upperHalves, hdivw.ignores_upperHalves, hdivuw.ignores_upperHalves,
    hremw.ignores_upperHalves, hremuw.ignores_upperHalves, List.forall_mem_nil _⟩

end Sys2Proof.Machine
end

section
/-! PROOFS. The statements of 43_op_imm.md. First the sign-extended immediate as the integer that it stands for, at 64 bits and in
its low 32; then what is left to show of an instruction with one register and one constant operand: the value that it writes. -/

namespace Sys2Proof.Machine

/-! ## The sign-extended immediate (43_op_imm.md R260) -/

section
variable (imm : BitVec 12)

theorem sextImm12_eq_wordOf : sextImm12 imm = wordOf imm.toInt := rfl

theorem signedN_sextImm12 : signedN 64 (sextImm12 imm) = imm.toInt := by
  rw [signedN_64, sextImm12, BitVec.toInt_signExtend_of_le (by decide)]

/-- R261: the carry out of bit 63 is lost, and a negative immediate subtracts. -/
theorem add_sextImm12 (a : Word) : a + sextImm12 imm = wordOf (a.toNat + imm.toInt) := by
  have himm := toNat_wordOf imm.toInt
  rw [← sextImm12_eq_wordOf] at himm
  exact eq_wordOf (by rw [BitVec.toNat_add]; omega)

/-- R262: the immediate is compared with its sign. -/
theorem flagWord_ltSigned_sextImm12 (a : Word) :
    flagWord (ltSigned a (sextImm12 imm)) = bit (signedN 64 a < imm.toInt) := by
  simp only [flagWord_ltSigned, signedN_sextImm12]

/-- R270: the low 32 bits of the immediate are added to those of the register. -/
theorem sext32_add_sextImm12 (a : Word32) :
    sext32 (a + (sextImm12 imm).setWidth 32) = sextN 32 (a.toNat + imm.toInt) := by
  have himm := toNat_wordOf imm.toInt
  rw [← sextImm12_eq_wordOf] at himm
  rw [sext32_add, BitVec.toNat_setWidth]
  exact sextN_congr (by omega)

end

/-! ## The shape of an immediate operation -/

/-- An instruction with one register and one constant operand, an immediate or a shift amount, that writes the value `result` and
retires. -/
theorem retiresWith_of_writeResult {k : Nat} {mk : RegIdx → RegIdx → BitVec k → Instr}
    {value result : State → RegIdx → BitVec k → Word}
    (hexec : ∀ s rd rs1 c, exec (mk rd rs1 c) s = writeResult rd (value s rs1 c) s)
    (hvalue : ∀ s rs1 c, value s rs1 c = result s rs1 c) (s : State) (rd rs1 : RegIdx) (c : BitVec k) :
    RetiresWith (exec (mk rd rs1 c) s) s rd (result s rs1 c) (s.pc + 4#64) := by
  rw [hexec, hvalue]
  exact writeResult_retires rd _ s

/-! ## The statements -/

/-- Settles O14: six write the operation on `x[rs1]` and the sign-extended immediate, three shift by the constant amount, and a
shift word with other bits 31:26 is not listed. -/
theorem immediateResults : Obligations.ImmediateResults := by
  refine ⟨?addi, ?slti, ?sltiu, ?xori, ?ori, ?andi, ?slli, ?srli, ?srai, fun w ho => ⟨?noSlli, ?noSrli⟩⟩
  case addi =>
    exact ⟨selects_addi, retiresWith_of_writeResult (fun _ _ _ _ => rfl) fun _ _ imm => add_sextImm12 imm _⟩
  case slti =>
    exact ⟨selects_slti, retiresWith_of_writeResult (fun _ _ _ _ => rfl) fun _ _ imm => flagWord_ltSigned_sextImm12 imm _⟩
  case sltiu =>
    exact ⟨selects_sltiu, retiresWith_of_writeResult (fun _ _ _ _ => rfl) fun _ _ imm => flagWord_ltUnsigned _ (sextImm12 imm)⟩
  case xori =>
    exact ⟨selects_xori, retiresWith_of_writeResult (fun _ _ _ _ => rfl) fun _ _ imm => by rw [sextImm12_eq_wordOf]⟩
  case ori =>
    exact ⟨selects_ori, retiresWith_of_writeResult (fun _ _ _ _ => rfl) fun _ _ imm => by rw [sextImm12_eq_wordOf]⟩
  case andi =>
    exact ⟨selects_andi, retiresWith_of_writeResult (fun _ _ _ _ => rfl) fun _ _ imm => by rw [sextImm12_eq_wordOf]⟩
  case slli =>
    exact ⟨selects_slli, retiresWith_of_writeResult (fun _ _ _ _ => rfl) fun _ _ _ => shiftLeft_eq_wordOf _ _⟩
  case srli =>
    exact ⟨selects_srli, retiresWith_of_writeResult (fun _ _ _ _ => rfl) fun _ _ _ => ushiftRight_eq_wordOf _ _⟩
  case srai =>
    exact ⟨selects_srai, retiresWith_of_writeResult (fun _ _ _ _ => rfl) fun _ _ _ => sshiftRight_eq_wordOf _ _⟩
  case noSlli =>
    exact fun h3 hn => matchesNoRow_of_unlisted (decodeWord_opImm ho) decodeOpImm_listed fun ⟨h1, _⟩ => hn (h1 h3)
  case noSrli =>
    intro h3 h0 h16
    have hn : Enc.funct6 w ∉ [0#6, 16#6] := by simp [h0, h16]
    exact matchesNoRow_of_unlisted (decodeWord_opImm ho) decodeOpImm_listed fun ⟨_, h5⟩ => hn (h5 h3)

/-- Settles O15: each of the four writes the sign extension of its 32-bit operation on the low half of `x[rs1]`, and SLLIW leaves no
row to a word with bit 25 set. -/
theorem wordImmediateResults : Obligations.WordImmediateResults := by
  refine ⟨?addiw, ?slliw, ?srliw, ?sraiw, fun w ho h3 h25 => ?noSlliw⟩
  case addiw =>
    exact ⟨selects_addiw, retiresWith_of_writeResult (fun _ _ _ _ => rfl) fun _ _ imm => by
      rw [sext32_add_sextImm12, readX32_toNat]⟩
  case slliw =>
    exact ⟨selects_slliw, retiresWith_of_writeResult (fun _ _ _ _ => rfl) fun _ _ _ => by
      rw [sext32_shiftLeft, readX32_toNat]⟩
  case srliw =>
    exact ⟨selects_srliw, retiresWith_of_writeResult (fun _ _ _ _ => rfl) fun _ _ _ => by
      rw [sext32_ushiftRight, readX32_toNat]⟩
  case sraiw =>
    exact ⟨selects_sraiw, retiresWith_of_writeResult (fun _ _ _ _ => rfl) fun _ _ _ => by
      rw [sext32_sshiftRight, readX32_toInt]⟩
  case noSlliw =>
    have h0 : Enc.funct3 w ≠ 0#3 := by rw [h3]; decide
    exact matchesNoRow_of_unlisted (decodeWord_opImm32 ho) (fun hd => decodeOpImm32_bit25 hd h0) (ne_false_of_eq_true h25)

end Sys2Proof.Machine
end

section
/-! PROOFS. The statements of 44_lui_auipc.md, with JAL of 45_jump_branch.md, which adds to the pc as AUIPC does. First the U-type
immediate as an integer sign-extended from bit 31, and the sum of the pc and a signed constant. -/

namespace Sys2Proof.Machine

/-- R153: the field over twelve zero bits is the field times 4096, sign-extended from bit 31. -/
theorem upperImm_eq_sextN (imm20 : BitVec 20) : upperImm imm20 = sextN 32 (imm20.toNat * 4096) :=
  sext32_eq (by rw [Enc.toNat_append, BitVec.toNat_ofNat]; omega)

/-- R291, R302: a negative constant subtracts, and the sum wraps modulo 2^64 (decision D30). -/
theorem add_wordOf (a : Word) (v : Int) : a + wordOf v = wordOf (a.toNat + v) := by
  have hv := toNat_wordOf v
  exact eq_wordOf (by rw [BitVec.toNat_add]; omega)

/-- Settles O16: LUI writes its U-type immediate and retires. -/
theorem luiResult : Obligations.LuiResult := by
  refine ⟨selects_lui, fun s rd imm20 => ?value⟩
  case value =>
    rw [← upperImm_eq_sextN]
    exact writeResult_retires rd _ s

/-- Settles O17: AUIPC adds its U-type immediate, and JAL its byte offset, to the pc of the state that it executes in. -/
theorem auipcAndJalResults : Obligations.AuipcAndJalResults := by
  refine ⟨selects_auipc, selects_jal, fun s rd imm20 => ?auipc, fun s rd offset => ?jal⟩
  case auipc =>
    rw [← add_wordOf, ← sextN, ← upperImm_eq_sextN]
    exact writeResult_retires rd _ s
  case jal =>
    rw [← add_wordOf]
    exact jumpAndLink_retires rd _ s

end Sys2Proof.Machine
end

section
/-! PROOFS. The remaining statements of 45_jump_branch.md. First the target of JALR as an integer modulo 2^64; then what is left to
show of a branch: its condition; then the two addresses that a branch can lead to. -/

namespace Sys2Proof.Machine

/-! ## The target of JALR (45_jump_branch.md R303) -/

/-- Clearing bit 0 rounds the unsigned reading down to an even number. -/
theorem and_not_one_eq_wordOf (a : Word) : a &&& ~~~1#64 = wordOf (a.toNat / 2 * 2 : Nat) := by
  have hmask : ~~~1#64 = BitVec.allOnes 64 <<< 1 := by decide
  rw [hmask, ← BitVec.shiftLeft_ushiftRight, shiftLeft_eq_wordOf, BitVec.toNat_ushiftRight, Nat.shiftRight_eq_div_pow, pow_one]

/-- The sum may be rounded before it wraps, since 2^64 is even. -/
theorem jalrTarget_eq_wordOf (s : State) (rs1 : RegIdx) (imm : BitVec 12) :
    jalrTarget s rs1 imm = wordOf (((s.readX rs1).toNat + imm.toInt) / 2 * 2) := by
  have hsum := toNat_wordOf ((s.readX rs1).toNat + imm.toInt)
  rw [jalrTarget, add_sextImm12, and_not_one_eq_wordOf, wordOf_eq_iff]
  omega

/-- Settles O18: JALR links and jumps to its target, and a word of its opcode decodes for funct3 0 only. -/
theorem jalrResult : Obligations.JalrResult := by
  refine ⟨selects_jalr, fun w ho hn => ?unlisted, fun s rd rs1 imm => ?result⟩
  case unlisted =>
    exact matchesNoRow_of_unlisted (decodeWord_of_opcode ho (decodeJalr_of_opcode ho)) decodeJalr_listed hn
  case result =>
    rw [← jalrTarget_eq_wordOf]
    exact jumpAndLink_retires rd _ s

/-! ## The branches (45_jump_branch.md R304 to R310) -/

/-- A branch whose row is selected, and which is taken exactly when `cond` holds of `x[rs1]` and `x[rs2]`. -/
theorem branchesOn_of_branchIf {mk : RegIdx → RegIdx → BitVec 13 → Instr} {mtch mask : Word32} {cond : Word → Word → Prop}
    {taken : Word → Word → Bool} (hrow : Selects (fun w => mk (Enc.rs1 w) (Enc.rs2 w) (Enc.immB w)) mtch mask)
    (hexec : ∀ s rs1 rs2 offset, exec (mk rs1 rs2 offset) s = branchIf (taken (s.readX rs1) (s.readX rs2)) offset s)
    (htaken : ∀ a b, taken a b = true ↔ cond a b) : BranchesOn mk mtch mask cond := by
  refine ⟨hrow, fun s rs1 rs2 offset => ?_⟩
  have h := branchIf_retires (taken (s.readX rs1) (s.readX rs2)) offset s
  rw [← hexec] at h
  rw [← htaken]
  refine ⟨fun hc => ?taken, fun hc => ?notTaken⟩
  case taken =>
    rw [if_pos hc] at h
    rw [← add_wordOf]
    exact h
  case notTaken =>
    rw [if_neg hc] at h
    exact h

/-- BLT compares the signed readings (R307). -/
theorem ltSigned_iff (a b : Word) : ltSigned a b = true ↔ signedN 64 a < signedN 64 b := by
  rw [signedN_64, signedN_64, ltSigned, decide_eq_true_iff]

/-- BLTU compares the unsigned readings (R309). -/
theorem ltUnsigned_iff (a b : Word) : ltUnsigned a b = true ↔ a.toNat < b.toNat := by
  rw [ltUnsigned, decide_eq_true_iff]

/-- Settles O19: each of the six is taken exactly on the comparison of its rule. -/
theorem branchResults : Obligations.BranchResults := by
  refine ⟨?beq, ?bne, ?blt, ?bge, ?bltu, ?bgeu⟩
  case beq => exact branchesOn_of_branchIf selects_beq (fun _ _ _ _ => rfl) fun _ _ => decide_eq_true_iff
  case bne => exact branchesOn_of_branchIf selects_bne (fun _ _ _ _ => rfl) fun _ _ => decide_eq_true_iff
  case blt => exact branchesOn_of_branchIf selects_blt (fun _ _ _ _ => rfl) ltSigned_iff
  case bge =>
    exact branchesOn_of_branchIf selects_bge (fun _ _ _ _ => rfl) fun a b => by
      rw [Bool.not_eq_true', ← Bool.not_eq_true, ltSigned_iff, not_lt]
  case bltu => exact branchesOn_of_branchIf selects_bltu (fun _ _ _ _ => rfl) ltUnsigned_iff
  case bgeu =>
    exact branchesOn_of_branchIf selects_bgeu (fun _ _ _ _ => rfl) fun a b => by
      rw [Bool.not_eq_true', ← Bool.not_eq_true, ltUnsigned_iff, not_lt]

/-! ## The pairs (45_jump_branch.md R311) -/

/-- Taken and not taken lead to different addresses: a 13-bit offset other than 4 is not 4 modulo 2^64 either. -/
theorem branchTarget_ne_next (pc : Word) {offset : BitVec 13} (hoffset : offset ≠ 4#13) :
    wordOf (pc.toNat + offset.toInt) ≠ pc + 4#64 := by
  have hne : offset.toInt ≠ 4 := fun h => hoffset (BitVec.eq_of_toInt_eq h)
  have hlow := BitVec.le_toInt offset
  have hhigh := BitVec.toInt_lt (x := offset)
  rw [add_eq_wordOf, ne_eq, wordOf_eq_iff, BitVec.toNat_ofNat]
  omega

/-- Of two branches on opposite conditions one goes to its target and the other to the next instruction. -/
theorem branches_partition {mk mk' : RegIdx → RegIdx → BitVec 13 → Instr} {mtch mask mtch' mask' : Word32}
    {cond cond' : Word → Word → Prop} (h : BranchesOn mk mtch mask cond) (h' : BranchesOn mk' mtch' mask' cond')
    (hopposite : ∀ a b, cond' a b ↔ ¬cond a b) (s : State) (rs1 rs2 : RegIdx) {offset : BitVec 13} (hoffset : offset ≠ 4#13) :
    ∃ t u, exec (mk rs1 rs2 offset) s = .next t ∧ exec (mk' rs1 rs2 offset) s = .next u ∧
      ((t.pc = wordOf (s.pc.toNat + offset.toInt) ∧ u.pc = s.pc + 4#64 ∧ t.pc ≠ u.pc) ∨
       (u.pc = wordOf (s.pc.toNat + offset.toInt) ∧ t.pc = s.pc + 4#64 ∧ t.pc ≠ u.pc)) := by
  have hne := branchTarget_ne_next s.pc hoffset
  obtain ⟨_, hmk⟩ := h
  obtain ⟨_, hmk'⟩ := h'
  obtain ⟨htaken, hnot⟩ := hmk s rs1 rs2 offset
  obtain ⟨htaken', hnot'⟩ := hmk' s rs1 rs2 offset
  rw [hopposite] at htaken' hnot'
  by_cases hc : cond (s.readX rs1) (s.readX rs2)
  case pos =>
    obtain ⟨t, ht, _, htpc, _⟩ := htaken hc
    obtain ⟨u, hu, _, hupc, _⟩ := hnot' (not_not_intro hc)
    exact ⟨t, u, ht, hu, .inl ⟨htpc, hupc, by rwa [htpc, hupc]⟩⟩
  case neg =>
    obtain ⟨t, ht, _, htpc, _⟩ := hnot hc
    obtain ⟨u, hu, _, hupc, _⟩ := htaken' hc
    exact ⟨t, u, ht, hu, .inr ⟨hupc, htpc, by rw [htpc, hupc]; exact hne.symm⟩⟩

/-- Settles O20: the conditions of each pair are opposite. -/
theorem branchConditionsPartition : Obligations.BranchConditionsPartition := by
  obtain ⟨hbeq, hbne, hblt, hbge, hbltu, hbgeu⟩ := branchResults
  intro p hp s rs1 rs2 offset hoffset
  simp only [List.mem_cons, List.not_mem_nil, or_false] at hp
  rcases hp with rfl | rfl | rfl
  · exact branches_partition hbeq hbne (fun _ _ => Iff.rfl) s rs1 rs2 hoffset
  · exact branches_partition hblt hbge (fun _ _ => not_lt.symm) s rs1 rs2 hoffset
  · exact branches_partition hbltu hbgeu (fun _ _ => not_lt.symm) s rs1 rs2 hoffset

end Sys2Proof.Machine
end

section
/-! PROOFS. The remaining statements of 46_load_store_fence.md: what each load and each store takes from the shared operation of its
width, with the extension that a load applies to the number it read. -/

namespace Sys2Proof.Machine

/-- Settles O21: the immediate is added with its sign, and the carry out of bit 63 is lost. -/
theorem effectiveAddressWraps : Obligations.EffectiveAddressWraps :=
  fun s rs1 imm => add_sextImm12 imm (s.readX rs1)

/-! ## Loads (46_load_store_fence.md R321 to R328) -/

/-- A load whose row is selected, and whose extension of a number of `n` bytes is `ext`. -/
theorem loadsAs_of_loadInto {mk : RegIdx → RegIdx → BitVec 12 → Instr} {mtch mask : Word32} {n : Nat} {extend : Word → Word}
    {ext : Nat → Word} (hrow : Selects (fun w => mk (Enc.rd w) (Enc.rs1 w) (Enc.immI w)) mtch mask)
    (hn : n = 1 ∨ n = 2 ∨ n = 4 ∨ n = 8) (hexec : ∀ rd rs1 imm s, exec (mk rd rs1 imm) s = loadInto rd rs1 imm n extend s)
    (hext : ∀ v, v < 2 ^ (8 * n) → extend (BitVec.ofNat 64 v) = ext v) : LoadsAs mk mtch mask n ext := by
  refine ⟨hrow, fun s rd rs1 imm hv => ?_⟩
  obtain ⟨hmisaligned, hunmapped, hload⟩ := loadInto_spec hv rd rs1 imm hn extend
  rw [hexec]
  refine ⟨hmisaligned, hunmapped, fun hal hm => ?mapped⟩
  case mapped =>
    obtain ⟨hlt, hretires⟩ := hload hal hm
    rwa [hext _ (by rwa [Nat.pow_mul])] at hretires

/-- Settles O22: each of the six is the shared load of its width, with its own extension. -/
theorem loadResults : Obligations.LoadResults := by
  refine ⟨?lb, ?lh, ?lw, ?lbu, ?lhu, ?lwu⟩
  case lb =>
    exact loadsAs_of_loadInto selects_lb (by decide) (fun _ _ _ _ => rfl) fun _ _ => sext_ofNat (by decide) (by decide) _
  case lh =>
    exact loadsAs_of_loadInto selects_lh (by decide) (fun _ _ _ _ => rfl) fun _ _ => sext_ofNat (by decide) (by decide) _
  case lw =>
    exact loadsAs_of_loadInto selects_lw (by decide) (fun _ _ _ _ => rfl) fun _ _ => sext_ofNat (by decide) (by decide) _
  case lbu =>
    exact loadsAs_of_loadInto selects_lbu (by decide) (fun _ _ _ _ => rfl) fun _ hlt => zext_ofNat (by decide) hlt
  case lhu =>
    exact loadsAs_of_loadInto selects_lhu (by decide) (fun _ _ _ _ => rfl) fun _ hlt => zext_ofNat (by decide) hlt
  case lwu =>
    exact loadsAs_of_loadInto selects_lwu (by decide) (fun _ _ _ _ => rfl) fun _ hlt => zext_ofNat (by decide) hlt

/-- Settles O23: LD is the shared load of 8 bytes, and a number of 64 bits needs no extension. -/
theorem ldLoadsAllBits : Obligations.LdLoadsAllBits :=
  loadsAs_of_loadInto selects_ld (by decide) (fun _ _ _ _ => rfl) fun v _ => (wordOf_natCast v).symm

/-! ## Stores (46_load_store_fence.md R329 to R333) -/

/-- A store whose row is selected does in MainMemory, and where it raises, what the shared store does. -/
theorem storesAs_of_storeFrom {mk : RegIdx → RegIdx → BitVec 12 → Instr} {mtch mask : Word32} {n : Nat}
    (hrow : Selects (fun w => mk (Enc.rs1 w) (Enc.rs2 w) (Enc.immS w)) mtch mask) (hn : n = 1 ∨ n = 2 ∨ n = 4 ∨ n = 8)
    (hexec : ∀ rs1 rs2 imm s, exec (mk rs1 rs2 imm) s = storeFrom rs1 rs2 imm n s) : StoresAs mk mtch mask n := by
  refine ⟨hrow, fun s rs1 rs2 imm hv => ?_⟩
  obtain ⟨hmisaligned, hunmapped, _, hram, _⟩ := storeFrom_spec hv rs1 rs2 imm hn
  rw [hexec]
  exact ⟨hmisaligned, hunmapped, hram⟩

/-- Settles O25: each of the four is the shared store of its width. -/
theorem storeResults : Obligations.StoreResults := by
  refine ⟨?sb, ?sh, ?sw, ?sd⟩
  case sb => exact storesAs_of_storeFrom selects_sb (by decide) fun _ _ _ _ => rfl
  case sh => exact storesAs_of_storeFrom selects_sh (by decide) fun _ _ _ _ => rfl
  case sw => exact storesAs_of_storeFrom selects_sw (by decide) fun _ _ _ _ => rfl
  case sd => exact storesAs_of_storeFrom selects_sd (by decide) fun _ _ _ _ => rfl

/-! ## Fences (46_load_store_fence.md R340, R341) -/

/-- Settles O29: both retire, whatever their fields. -/
theorem fencesOnlyAdvance : Obligations.FencesOnlyAdvance :=
  ⟨selects_fence, selects_fenceI, fun s _ _ _ _ _ => ⟨retire_retires s, retire_retires s⟩⟩

end Sys2Proof.Machine
end

section
/-! PROOFS. The remaining statements of 47_system.md: the CSR instructions, ECALL and MRET; then what the mode decides: every shared
operation at a state, and at the same state in another mode. -/

namespace Sys2Proof.Machine

/-! ## The CSR instructions (47_system.md R350 to R356) -/

theorem zextZimm_eq_wordOf (zimm : BitVec 5) : zextZimm zimm = wordOf zimm.toNat := by
  rw [wordOf_natCast, BitVec.ofNat_toNat, zextZimm]

/-- A CSR instruction with an immediate operand whose row is selected. -/
theorem updatesCsrI_of_csrUpdate {mk : RegIdx → CsrIdx → BitVec 5 → Instr} {mtch mask : Word32} {f : Word → Word → Word}
    (hrow : Selects (fun w => mk (Enc.rd w) (Enc.csr w) (Enc.rs1 w)) mtch mask)
    (hexec : ∀ s rd csr zimm, exec (mk rd csr zimm) s = csrUpdate rd csr (f (s.readCsr csr) (zextZimm zimm)) s) :
    UpdatesCsrI mk mtch mask f := by
  refine ⟨hrow, fun s rd csr zimm => ?_⟩
  rw [hexec, zextZimm_eq_wordOf]
  exact csrUpdate_updates rd csr _ s

/-- Settles O30: each of the six is the shared update, with the new value that its rule forms. -/
theorem csrInstructionResults : Obligations.CsrInstructionResults := by
  refine ⟨?csrrw, ?csrrs, ?csrrc, ?csrrwi, ?csrrsi, ?csrrci⟩
  case csrrw => exact ⟨selects_csrrw, fun s rd csr _ => csrUpdate_updates rd csr _ s⟩
  case csrrs => exact ⟨selects_csrrs, fun s rd csr _ => csrUpdate_updates rd csr _ s⟩
  case csrrc => exact ⟨selects_csrrc, fun s rd csr _ => csrUpdate_updates rd csr _ s⟩
  case csrrwi => exact updatesCsrI_of_csrUpdate selects_csrrwi fun _ _ _ _ => rfl
  case csrrsi => exact updatesCsrI_of_csrUpdate selects_csrrsi fun _ _ _ _ => rfl
  case csrrci => exact updatesCsrI_of_csrUpdate selects_csrrci fun _ _ _ _ => rfl

/-! ## ECALL and MRET (47_system.md R360, R361) -/

theorem ecall_traps (s : State) : Traps (exec .ecall s) s (ecallExc s.mode) := raise_traps _ s

/-- Settles O32: ECALL takes the exception that its mode names. -/
theorem ecallTraps : Obligations.EcallTraps := by
  refine ⟨decodeWord_ecall, fun s => ?_⟩
  have htraps := ecall_traps s
  refine ⟨fun hmode => ?_, fun hmode => ?_, fun hmode => ?_⟩
  all_goals rwa [hmode] at htraps

theorem mpp_toNat (s : State) : s.mpp.toNat = (s.readCsr Csr.mstatus).toNat / 2 ^ 11 % 4 :=
  Enc.toNat_extract _ 11 2

theorem mpp_eq_ofNat {s : State} {n : Nat} (h : (s.readCsr Csr.mstatus).toNat / 2 ^ 11 % 4 = n) : s.mpp = BitVec.ofNat 2 n := by
  rw [← h, ← mpp_toNat, BitVec.ofNat_toNat, BitVec.setWidth_eq]

theorem trapReturn_of_some {s : State} {m : Mode} (h : modeOfMpp s.mpp = some m) :
    trapReturn s = .next (({ s with mode := m } : State).retireTo (s.readCsr Csr.mepc)) := by
  unfold trapReturn
  rw [h]

theorem trapReturn_of_none {s : State} (h : modeOfMpp s.mpp = none) : trapReturn s = raiseIllegal .mretReservedMpp s := by
  unfold trapReturn
  rw [h]

/-- Settles O33: MPP names a mode, but for the reserved 10. -/
theorem mretReturns : Obligations.MretReturns := by
  refine ⟨decodeWord_mret, fun s => ⟨fun h => ?reserved, fun m mpp hmode h => ?returns⟩⟩
  case reserved =>
    have hnone : modeOfMpp s.mpp = none := by rw [mpp_eq_ofNat h]; rfl
    have hraise : exec .mret s = raise (.illegalInstruction .mretReservedMpp) s := trapReturn_of_none hnone
    rw [hraise]
    exact raise_traps _ s
  case returns =>
    have hsome : modeOfMpp s.mpp = some m := by
      rw [mpp_eq_ofNat h]
      simp only [List.mem_cons, Prod.mk.injEq, List.not_mem_nil, or_false] at hmode
      obtain ⟨rfl, rfl⟩ | ⟨rfl, rfl⟩ | ⟨rfl, rfl⟩ := hmode
      all_goals rfl
    exact ⟨_, trapReturn_of_some hsome, rfl, rfl, fun _ => rfl, fun _ => rfl, sameMemory_of rfl rfl rfl, rfl, rfl, rfl, rfl⟩

/-! ## What the mode decides (47_system.md R366, 60_exceptions.md R441) -/

/-- The state in another mode. -/
def State.withMode (s : State) (m : Mode) : State := { s with mode := m }

/-- `r`, answered at `s`, and `r'`, answered at `s` in the mode `m`, are next states that differ in the mode only, which each of
the two keeps. -/
def ModeAlike (s : State) (m : Mode) (r r' : Result) : Prop :=
  ∃ t, r = .next t ∧ t.mode = s.mode ∧ r' = .next (t.withMode m)

theorem State.withMode_writeX (s : State) (m : Mode) (rd : RegIdx) (v : Word) :
    (s.withMode m).writeX rd v = (s.writeX rd v).withMode m := by
  unfold State.writeX
  split <;> rfl

theorem memRead_withMode (s : State) (m : Mode) (a : Word) (n : Nat) : memRead (s.withMode m) a n = memRead s a n :=
  memRead_congr rfl rfl rfl a n

theorem deviceWrite_withMode (s : State) (m : Mode) (d : Device) (off n : Nat) (v : Word) :
    deviceWrite (s.withMode m) d off n v = (deviceWrite s d off n v).map (·.withMode m) := by
  cases d with
  | mainMemory => rfl
  | bootRom => rfl
  | timerController => rfl
  | consoleSink =>
    by_cases h0 : off = 0
    · subst h0; rfl
    · simp [deviceWrite, h0, Except.map]

theorem memWrite_withMode (s : State) (m : Mode) (a v : Word) {n : Nat} (hn : n = 1 ∨ n = 2 ∨ n = 4 ∨ n = 8) :
    memWrite (s.withMode m) a n v = (memWrite s a n v).map (·.withMode m) := by
  have hcfg : (s.withMode m).cfg = s.cfg := rfl
  rw [memWrite_eq s a v hn, memWrite_eq _ a v hn, hcfg]
  split
  · rfl
  · cases regionOf s.cfg a with
    | none => rfl
    | some r => exact deviceWrite_withMode s m r.device _ n v

section
variable {s : State} {m : Mode}

/-! ### The shared operations -/

theorem raise_modeAlike (e : Exc) : ModeAlike s m (raise e s) (raise e (s.withMode m)) := ⟨_, rfl, rfl, rfl⟩

/-- Writing a register and retiring after an operation that keeps the mode. -/
theorem writeX_modeAlike {t : State} (ht : t.mode = s.mode) (rd : RegIdx) (v target : Word) :
    ModeAlike s m (.next ((t.writeX rd v).retireTo target)) (.next (((t.withMode m).writeX rd v).retireTo target)) := by
  refine ⟨_, rfl, (State.writeX_mode t rd v).trans ht, ?_⟩
  rw [State.withMode_writeX]
  rfl

theorem writeResult_modeAlike {t : State} (ht : t.mode = s.mode) (rd : RegIdx) (v : Word) :
    ModeAlike s m (writeResult rd v t) (writeResult rd v (t.withMode m)) := by
  unfold writeResult retire
  rw [State.writeX_pc, State.writeX_pc]
  exact writeX_modeAlike ht rd v _

theorem branchIf_modeAlike (cond : Bool) (offset : BitVec 13) :
    ModeAlike s m (branchIf cond offset s) (branchIf cond offset (s.withMode m)) := by
  cases cond
  · exact writeX_modeAlike rfl 0#5 0#64 _
  · exact writeX_modeAlike rfl 0#5 0#64 _

theorem loadInto_modeAlike (rd rs1 : RegIdx) (imm : BitVec 12) (n : Nat) (ext : Word → Word) :
    ModeAlike s m (loadInto rd rs1 imm n ext s) (loadInto rd rs1 imm n ext (s.withMode m)) := by
  have haddr : effectiveAddr (s.withMode m) rs1 imm = effectiveAddr s rs1 imm := rfl
  unfold loadInto
  rw [haddr, memRead_withMode]
  cases memRead s (effectiveAddr s rs1 imm) n with
  | error e => exact raise_modeAlike e
  | ok v => exact writeResult_modeAlike rfl rd (ext v)

theorem storeFrom_modeAlike (rs1 rs2 : RegIdx) (imm : BitVec 12) {n : Nat} (hn : n = 1 ∨ n = 2 ∨ n = 4 ∨ n = 8) :
    ModeAlike s m (storeFrom rs1 rs2 imm n s) (storeFrom rs1 rs2 imm n (s.withMode m)) := by
  have haddr : effectiveAddr (s.withMode m) rs1 imm = effectiveAddr s rs1 imm := rfl
  have hvalue : (s.withMode m).readX rs2 = s.readX rs2 := rfl
  unfold storeFrom
  rw [haddr, hvalue, memWrite_withMode s m _ _ hn]
  cases hw : memWrite s (effectiveAddr s rs1 imm) n (s.readX rs2) with
  | error e => exact raise_modeAlike e
  | ok t =>
    obtain ⟨_, _, _, _, hmode, _⟩ := memWrite_fields hn hw
    exact writeResult_modeAlike hmode 0#5 0#64

theorem amo_modeAlike (rd rs1 : RegIdx) {n : Nat} (hn : n = 1 ∨ n = 2 ∨ n = 4 ∨ n = 8) (new ret : Word → Word) :
    ModeAlike s m (amo rd rs1 n new ret s) (amo rd rs1 n new ret (s.withMode m)) := by
  have haddr : (s.withMode m).readX rs1 = s.readX rs1 := rfl
  unfold amo
  rw [haddr, memRead_withMode]
  cases memRead s (s.readX rs1) n with
  | error e => exact raise_modeAlike e
  | ok old =>
    simp only [memWrite_withMode s m _ _ hn]
    cases hw : memWrite s (s.readX rs1) n (new old) with
    | error e => exact raise_modeAlike e
    | ok t =>
      obtain ⟨_, _, _, _, hmode, _⟩ := memWrite_fields hn hw
      exact writeResult_modeAlike hmode rd (ret old)

/-- MRET sets the same mode in both, unless it raises. -/
theorem trapReturn_withMode : ModeAlike s m (trapReturn s) (trapReturn (s.withMode m)) ∨
    ∃ t, trapReturn s = .next t ∧ trapReturn (s.withMode m) = .next t := by
  have hmpp : (s.withMode m).mpp = s.mpp := rfl
  cases h : modeOfMpp s.mpp with
  | none =>
    rw [trapReturn_of_none h, trapReturn_of_none (hmpp ▸ h)]
    exact .inl (raise_modeAlike _)
  | some m' =>
    rw [trapReturn_of_some h, trapReturn_of_some (hmpp ▸ h)]
    exact .inr ⟨_, rfl, rfl⟩

/-! ### The instructions -/

/-- No instruction but ECALL and MRET reads or writes the mode. -/
theorem exec_modeAlike {i : Instr} (hecall : i ≠ .ecall) (hmret : i ≠ .mret) :
    ModeAlike s m (exec i s) (exec i (s.withMode m)) := by
  cases i
  case ecall => exact absurd rfl hecall
  case mret => exact absurd rfl hmret
  case jal | jalr => exact writeX_modeAlike rfl _ _ _
  case beq | bne | blt | bge | bltu | bgeu => exact branchIf_modeAlike _ _
  case lb | lh | lw | ld | lbu | lhu | lwu => exact loadInto_modeAlike _ _ _ _ _
  case sb | sh | sw | sd => exact storeFrom_modeAlike _ _ _ (by decide)
  case fence | fenceI => exact writeX_modeAlike rfl 0#5 0#64 _
  case csrrw rd csr _ | csrrs rd csr _ | csrrc rd csr _ | csrrwi rd csr _ | csrrsi rd csr _ | csrrci rd csr _ =>
    exact writeResult_modeAlike (t := s.writeCsr csr _) rfl rd _
  case mulhsu | wfi | lrW | lrD | scW | scD | amoswapW | amoswapD => exact raise_modeAlike _
  case amoaddW | amoxorW | amoandW | amoorW | amominW | amomaxW | amominuW | amomaxuW
      | amoaddD | amoxorD | amoandD | amoorD | amominD | amomaxD | amominuD | amomaxuD =>
    exact amo_modeAlike _ _ (by decide) _ _
  -- every other instruction computes the value of one register
  all_goals exact writeResult_modeAlike rfl _ _

/-- Two answers that are alike are as the claim asks. -/
theorem ModeAlike.next {i : Instr} {r r' : Result} (h : ModeAlike s m r r') :
    ∃ t t', r = .next t ∧ r' = .next t' ∧ t' = { t with mode := t'.mode } ∧
      ((t.mode = s.mode ∧ t'.mode = m) ∨ (i = .mret ∧ t'.mode = t.mode)) := by
  obtain ⟨t, ht, hmode, ht'⟩ := h
  exact ⟨t, _, ht, ht', rfl, .inl ⟨hmode, rfl⟩⟩

end

/-- Settles O46: MRET by `trapReturn_withMode`, every other instruction by `exec_modeAlike`. -/
theorem modeMattersToEcallOnly : Obligations.ModeMattersToEcallOnly := by
  intro i s m hecall
  by_cases hmret : i = .mret
  · subst hmret
    obtain h | ⟨t, ht, ht'⟩ := trapReturn_withMode (s := s) (m := m)
    · exact h.next
    · exact ⟨t, t, ht, ht', rfl, .inr ⟨rfl, rfl⟩⟩
  · exact (exec_modeAlike hecall hmret).next

end Sys2Proof.Machine
end

section
/-! PROOFS. The remaining statements of 48_amo.md. First the numbers that the operations store; then what an AMO takes from the
shared operation of its width; then the ordering bits. -/

namespace Sys2Proof.Machine

/-! ## The operations, on numbers (48_amo.md R384 to R399) -/

section
variable {w : Nat} (old v : BitVec w)

theorem amoMinSigned_toNat : (amoMinSigned old v).toNat = if old.toInt ≤ v.toInt then old.toNat else v.toNat :=
  apply_ite BitVec.toNat _ _ _

theorem amoMaxSigned_toNat : (amoMaxSigned old v).toNat = if old.toInt ≥ v.toInt then old.toNat else v.toNat :=
  apply_ite BitVec.toNat _ _ _

theorem amoMinUnsigned_toNat : (amoMinUnsigned old v).toNat = if old.toNat ≤ v.toNat then old.toNat else v.toNat :=
  apply_ite BitVec.toNat _ _ _

theorem amoMaxUnsigned_toNat : (amoMaxUnsigned old v).toNat = if old.toNat ≥ v.toNat then old.toNat else v.toNat :=
  apply_ite BitVec.toNat _ _ _

/-- The signed reading of the old value, from its number. -/
theorem wrapN_toNat (hw : 0 < w) : wrapN w old.toNat = old.toInt := by
  rw [wrapN_eq hw, BitVec.ofInt_natCast, BitVec.ofNat_toNat, BitVec.setWidth_eq]

end

/-! ## The shape of an AMO (48_amo.md R380, R383) -/

/-- An AMO whose row is selected, and which stores the number `f old x[rs2]` and returns `ext old`. -/
theorem amoAs_of_amo {mk : AmoCtor} {mtch mask : Word32} {n : Nat} {new : Word → Word → Word} {ret : Word → Word}
    {f : Nat → Word → Nat} {ext : Nat → Word}
    (hrow : Selects (fun w => mk (Enc.aq w) (Enc.rl w) (Enc.rd w) (Enc.rs1 w) (Enc.rs2 w)) mtch mask)
    (hn : n = 1 ∨ n = 2 ∨ n = 4 ∨ n = 8)
    (hexec : ∀ s aq rl rd rs1 rs2,
      exec (mk aq rl rd rs1 rs2) s = amo rd rs1 n (fun old => new old (s.readX rs2)) ret s)
    (hret : ∀ old, ret (BitVec.ofNat 64 old) = ext old) (hzero : ret 0#64 = 0#64)
    (hnew : ∀ old v, old < 256 ^ n → (new (BitVec.ofNat 64 old) v).toNat = f old v) : AmoAs mk mtch mask n f ext := by
  refine ⟨hrow, fun s aq rl rd rs1 rs2 hv => ?_⟩
  obtain ⟨hmisaligned, hunmapped, hrom, hram, htimer, hfirst, hconsole⟩ :=
    amo_spec hv rd rs1 hn (fun old => new old (s.readX rs2)) ret
  rw [hzero] at htimer hfirst hconsole
  rw [hexec]
  refine ⟨hmisaligned, hunmapped, hrom, fun hal ha => ?stores, htimer, fun ha => ?emits, hconsole⟩
  case stores =>
    obtain ⟨hlt, hstores⟩ := hram hal ha
    rwa [hret, hnew _ _ hlt] at hstores
  case emits =>
    rw [← hnew 0 (s.readX rs2) (Nat.pow_pos (by decide)), BitVec.ofNat_toNat]
    exact hfirst ha

/-- A `.W` AMO, whose operation stores the number `g old x[rs2]` (48_amo.md R381). -/
theorem amoAs_of_amoW {mk : AmoCtor} {mtch mask : Word32} {f : Word32 → Word32 → Word32} {g : Nat → Word → Nat}
    (hrow : Selects (fun w => mk (Enc.aq w) (Enc.rl w) (Enc.rd w) (Enc.rs1 w) (Enc.rs2 w)) mtch mask)
    (hexec : ∀ s aq rl rd rs1 rs2, exec (mk aq rl rd rs1 rs2) s = amoW f rd rs1 rs2 s)
    (hf : ∀ (old : Word32) v, (f old (v.setWidth 32)).toNat = g old.toNat v) :
    AmoAs mk mtch mask 4 g (fun old => sextN 32 old) := by
  refine amoAs_of_amo (new := fun old v => (f (old.setWidth 32) (v.setWidth 32)).setWidth 64) hrow (by decide) hexec
    (fun old => sext_ofNat (by decide) (by decide) old) rfl fun old v hlt => ?_
  have hold : (BitVec.ofNat 32 old).toNat = old := by rw [BitVec.toNat_ofNat]; exact Nat.mod_eq_of_lt hlt
  rw [BitVec.toNat_setWidth_of_le (by decide), BitVec.setWidth_ofNat_of_le (by decide), hf, hold]

/-- A `.D` AMO, whose operation stores the number `g old x[rs2]` (48_amo.md R381). -/
theorem amoAs_of_amoD {mk : AmoCtor} {mtch mask : Word32} {f : Word → Word → Word} {g : Nat → Word → Nat}
    (hrow : Selects (fun w => mk (Enc.aq w) (Enc.rl w) (Enc.rd w) (Enc.rs1 w) (Enc.rs2 w)) mtch mask)
    (hexec : ∀ s aq rl rd rs1 rs2, exec (mk aq rl rd rs1 rs2) s = amoD f rd rs1 rs2 s)
    (hf : ∀ old v, (f old v).toNat = g old.toNat v) : AmoAs mk mtch mask 8 g (fun old => wordOf old) := by
  refine amoAs_of_amo hrow (by decide) hexec (fun old => (wordOf_natCast old).symm) rfl fun old v hlt => ?_
  have hold : (BitVec.ofNat 64 old).toNat = old := by rw [BitVec.toNat_ofNat]; exact Nat.mod_eq_of_lt hlt
  rw [hf, hold]

/-- Settles O35: each of the eight is the shared AMO of 4 bytes, with the number that its operation stores. -/
theorem amoWordResults : Obligations.AmoWordResults := by
  refine ⟨?add, ?xor, ?and, ?or, ?min, ?max, ?minu, ?maxu⟩
  case add =>
    exact amoAs_of_amoW selects_amoaddW (fun _ _ _ _ _ _ => rfl) fun _ _ => by rw [BitVec.toNat_add, unsignedN_eq]
  case xor =>
    exact amoAs_of_amoW selects_amoxorW (fun _ _ _ _ _ _ => rfl) fun _ _ => by rw [BitVec.toNat_xor, unsignedN_eq]
  case and =>
    exact amoAs_of_amoW selects_amoandW (fun _ _ _ _ _ _ => rfl) fun _ _ => by rw [BitVec.toNat_and, unsignedN_eq]
  case or =>
    exact amoAs_of_amoW selects_amoorW (fun _ _ _ _ _ _ => rfl) fun _ _ => by rw [BitVec.toNat_or, unsignedN_eq]
  case min =>
    exact amoAs_of_amoW selects_amominW (fun _ _ _ _ _ _ => rfl) fun _ _ => by
      rw [amoMinSigned_toNat, wrapN_toNat _ (by decide), signedN_eq (by decide), unsignedN_eq]
  case max =>
    exact amoAs_of_amoW selects_amomaxW (fun _ _ _ _ _ _ => rfl) fun _ _ => by
      rw [amoMaxSigned_toNat, wrapN_toNat _ (by decide), signedN_eq (by decide), unsignedN_eq]
  case minu =>
    exact amoAs_of_amoW selects_amominuW (fun _ _ _ _ _ _ => rfl) fun _ _ => by
      rw [amoMinUnsigned_toNat, unsignedN_eq]
  case maxu =>
    exact amoAs_of_amoW selects_amomaxuW (fun _ _ _ _ _ _ => rfl) fun _ _ => by
      rw [amoMaxUnsigned_toNat, unsignedN_eq]

/-- Settles O36: each of the eight is the shared AMO of 8 bytes, with the number that its operation stores. -/
theorem amoDoublewordResults : Obligations.AmoDoublewordResults := by
  refine ⟨?add, ?xor, ?and, ?or, ?min, ?max, ?minu, ?maxu⟩
  case add => exact amoAs_of_amoD selects_amoaddD (fun _ _ _ _ _ _ => rfl) fun _ _ => BitVec.toNat_add _ _
  case xor => exact amoAs_of_amoD selects_amoxorD (fun _ _ _ _ _ _ => rfl) fun _ _ => BitVec.toNat_xor _ _
  case and => exact amoAs_of_amoD selects_amoandD (fun _ _ _ _ _ _ => rfl) fun _ _ => BitVec.toNat_and _ _
  case or => exact amoAs_of_amoD selects_amoorD (fun _ _ _ _ _ _ => rfl) fun _ _ => BitVec.toNat_or _ _
  case min =>
    exact amoAs_of_amoD selects_amominD (fun _ _ _ _ _ _ => rfl) fun _ _ => by
      rw [amoMinSigned_toNat, wrapN_toNat _ (by decide), signedN_64]
  case max =>
    exact amoAs_of_amoD selects_amomaxD (fun _ _ _ _ _ _ => rfl) fun _ _ => by
      rw [amoMaxSigned_toNat, wrapN_toNat _ (by decide), signedN_64]
  case minu => exact amoAs_of_amoD selects_amominuD (fun _ _ _ _ _ _ => rfl) amoMinUnsigned_toNat
  case maxu => exact amoAs_of_amoD selects_amomaxuD (fun _ _ _ _ _ _ => rfl) amoMaxUnsigned_toNat

/-- Settles O37: no row's meaning takes the two bits. -/
theorem amoIgnoresOrderingBits : Obligations.AmoIgnoresOrderingBits := by
  intro mk hmk
  fin_cases hmk
  all_goals exact fun _ _ _ _ _ _ _ _ => rfl

end Sys2Proof.Machine
end

section
/-! PROOFS. The remaining statements of 60_exceptions.md: the codes and labels, what taking an exception writes, and the fault loop at
a vector that cannot be fetched. -/

namespace Sys2Proof.Machine

/-- Settles O39: the two tables, entry by entry. -/
theorem exceptionCodesAndLabels : Obligations.ExceptionCodesAndLabels :=
  ⟨fun _ => rfl, rfl, rfl, rfl, rfl, rfl, rfl, rfl, rfl, rfl, rfl, rfl, rfl, rfl, rfl, rfl, rfl, rfl, by decide⟩

/-- Settles O38: the CSRs by `trapEntry_readCsr`, every other field as `trapEntry` has it. -/
theorem trapEntryWritesFour : Obligations.TrapEntryWritesFour := by
  intro s e
  have hother : ∀ c, c ≠ Csr.mepc → c ≠ Csr.mcause → c ≠ Csr.mtval → (trapEntry e s).readCsr c = s.readCsr c :=
    fun c hmepc hmcause hmtval => by rw [trapEntry_readCsr, if_neg hmepc, if_neg hmtval, if_neg hmcause]
  exact ⟨_, rfl, trapEntry_readCsr e s Csr.mcause, trapEntry_readCsr e s Csr.mtval, trapEntry_readCsr e s Csr.mepc, rfl, hother,
    fun _ => rfl, sameMemory_of rfl rfl rfl, ⟨rfl, rfl, rfl⟩, rfl, rfl⟩

/-! ## The fault loop (60_exceptions.md R436) -/

/-- Two canonical CSR files in which every CSR reads the same are equal. -/
theorem CsrFile.ext_of_wf {f f' : CsrFile} (hf : f.wf = true) (hf' : f'.wf = true)
    (h : ∀ c : CsrIdx, Sparse.get unwrittenCsr f c.toNat = Sparse.get unwrittenCsr f' c.toNat) : f = f' := by
  have hbeyond : ∀ {g : CsrFile} {k : Nat}, g.wf = true → csrCount ≤ k → Sparse.get unwrittenCsr g k = unwrittenCsr := by
    intro g k hg hk
    exact Sparse.get_eq_default_of_not_mem fun p hp => by have := ((Sparse.wf_iff.mp hg).2 p hp).1; omega
  refine Sparse.ext_of_wf hf hf' fun k => ?_
  by_cases hk : k < csrCount
  · have hnum : (BitVec.ofNat 12 k : CsrIdx).toNat = k := by rw [BitVec.toNat_ofNat]; exact Nat.mod_eq_of_lt hk
    rw [← hnum, h]
  · rw [hbeyond hf (by omega), hbeyond hf' (by omega)]

/-- At a `pc` that is the vector, an exception taken once more changes nothing. -/
theorem trapEntry_trapEntry {s : State} (hs : s.csrs.wf = true) (hpc : s.pc = s.readCsr Csr.mtvec) (e : Exc) :
    trapEntry e (trapEntry e s) = trapEntry e s := by
  have hwf := trapEntry_csrs_wf hs e
  have hread : ∀ c, (trapEntry e (trapEntry e s)).readCsr c = (trapEntry e s).readCsr c := by
    intro c
    rw [trapEntry_readCsr e (trapEntry e s), trapEntry_readCsr e s, trapEntry_pc, ← hpc]
    split_ifs <;> rfl
  have hcsrs : (trapEntry e (trapEntry e s)).csrs = (trapEntry e s).csrs :=
    CsrFile.ext_of_wf (trapEntry_csrs_wf hwf e) hwf hread
  have hmtvec : (trapEntry e s).readCsr Csr.mtvec = s.readCsr Csr.mtvec := trapEntry_readCsr e s Csr.mtvec
  calc trapEntry e (trapEntry e s)
      = { trapEntry e s with csrs := (trapEntry e (trapEntry e s)).csrs, pc := (trapEntry e s).readCsr Csr.mtvec } := rfl
    _ = trapEntry e s := by rw [hcsrs, hmtvec]; rfl

/-- A fetch depends on the configuration, the two storage devices and `pc` only. -/
theorem fetch_congr {s t : State} (hcfg : t.cfg = s.cfg) (hram : t.ram = s.ram) (hrom : t.rom = s.rom) (hpc : t.pc = s.pc) :
    fetch t = fetch s := by
  unfold fetch
  rw [hpc, memRead_congr hcfg hram hrom, memRead_congr hcfg hram hrom]

theorem step_eq_raise {s : State} {e : Exc} (h : fetch s = .error e) : step s = raise e s := by
  unfold step
  rw [h]

/-- A `pc` that is no multiple of 4, or unmapped, can fetch no instruction (20_memory.md R110). -/
theorem fetch_error_of_unfetchable {s : State} (hv : configValid s.cfg = true)
    (h : s.pc.toNat % 4 ≠ 0 ∨ ¬Mapped s.cfg s.pc) : ∃ e, fetch s = .error e := by
  obtain ⟨hodd, hunmapped, hcompressed, hhalf, _⟩ := fetch_spec hv
  by_cases h2 : s.pc.toNat % 2 = 0
  · by_cases hm : Mapped s.cfg s.pc
    · by_cases hu : s.leAt s.pc 2 % 4 = 3
      · have h4 : s.pc.toNat % 4 ≠ 0 := h.resolve_right (not_not_intro hm)
        exact ⟨_, hhalf (by omega) hm hu⟩
      · exact ⟨_, hcompressed h2 hm hu⟩
    · exact ⟨_, hunmapped h2 hm⟩
  · exact ⟨_, hodd h2⟩

/-- Settles O50: the step takes the fetch's exception and `pc` stays, so the next step takes the same exception again. -/
theorem faultLoopIsAFixedPoint : Obligations.FaultLoopIsAFixedPoint := by
  intro s t ⟨hv, hcsrs, _, _⟩ hstep hpc hunfetchable
  obtain ⟨e, he⟩ := fetch_error_of_unfetchable hv hunfetchable
  obtain rfl : trapEntry e s = t := Host.Outcome.next.inj ((step_eq_raise he).symm.trans hstep)
  have hfetch : fetch (trapEntry e s) = .error e :=
    (fetch_congr (s := s) (t := trapEntry e s) rfl rfl rfl hpc.symm).trans he
  rw [step_eq_raise hfetch, raise, trapEntry_trapEntry hcsrs hpc]

end Sys2Proof.Machine
end

section
/-! PROOFS. The remaining statement of 70_reset_and_hazards.md: construction and loading. -/

namespace Sys2Proof.Machine

/-- The address at an offset of a region that is in order. -/
theorem region_offset {r : Region} (hok : regionOk r = true) {k : Nat} (hk : k < r.size) :
    (r.start + BitVec.ofNat 64 k).toNat - r.start.toNat = k ∧ regionHas r (r.start + BitVec.ofNat 64 k) = true := by
  obtain ⟨_, hend, _, _⟩ := regionOk_iff.mp hok
  have hsum : (r.start + BitVec.ofNat 64 k).toNat = r.start.toNat + k := by
    rw [BitVec.toNat_add, BitVec.toNat_ofNat]
    omega
  exact ⟨by omega, regionHas_iff.mpr (by omega)⟩

theorem byteAt_dram_offset {s : State} (hv : configValid s.cfg = true) {k : Nat} (hk : k < s.cfg.dramSize) :
    s.byteAt (s.cfg.dramStart + BitVec.ofNat 64 k) = some (s.ram.readByte k) := by
  obtain ⟨hok, _⟩ := configValid_iff.mp hv
  obtain ⟨hoff, ha⟩ := region_offset (hok _ (dramRegion_mem s.cfg)) hk
  exact (byteAt_of_inRam hv ha).trans (congrArg (some <| s.ram.readByte ·) hoff)

theorem byteAt_rom_offset {s : State} (hv : configValid s.cfg = true) {k : Nat} (hk : k < romSize) :
    s.byteAt (s.cfg.dtbStart + BitVec.ofNat 64 k) = some (s.rom.readByte k) := by
  obtain ⟨hok, _⟩ := configValid_iff.mp hv
  obtain ⟨hoff, ha⟩ := region_offset (hok _ (romRegion_mem s.cfg)) hk
  exact (byteAt_of_inRom hv ha).trans (congrArg (some <| s.rom.readByte ·) hoff)

/-- An empty storage loaded with a list of bytes holds it from offset 0 on, and zeros after it. -/
theorem Memory.readByte_image (bytes : List Byte) (k : Nat) :
    (Memory.writeBytes [] 0 bytes).readByte k = bytes.getD k 0#8 := by
  rw [Memory.readByte_writeBytes]
  split
  · rfl
  · next h => rw [List.getD_eq_default _ _ (by omega)]; rfl

theorem boot_eq_none {cfg : Config} {program blob : List Byte} :
    State.boot cfg program blob = none ↔
      configValid cfg = false ∨ cfg.dramSize < program.length ∨ romSize < blob.length := by
  simp [State.boot, or_iff_not_imp_left]

/-- What boot gives the two storage devices, and what it keeps of the constructed machine. -/
theorem boot_fields {cfg : Config} {program blob : List Byte} {s : State} (h : State.boot cfg program blob = some s) :
    configValid s.cfg = true ∧ s.ram = Memory.writeBytes [] 0 program ∧ s.rom = Memory.writeBytes [] 0 blob ∧
      s.pc = cfg.dramStart ∧ s.mode = .machine ∧ s.cfg = cfg ∧ s.console = [] ∧
      SameRegs (State.construct cfg) s ∧ SameCsrs (State.construct cfg) s := by
  obtain ⟨⟨hv, _, _⟩, rfl⟩ := boot_eq_some.mp h
  exact ⟨hv, rfl, rfl, rfl, rfl, rfl, rfl, fun _ => rfl, fun _ => rfl⟩

/-- Settles O55: the two storage devices hold their images, and the loader's moves leave the rest as constructed. -/
theorem bootLoadsTheImages : Obligations.BootLoadsTheImages := by
  refine fun cfg program blob => ⟨boot_eq_none, fun s h => ?_⟩
  obtain ⟨hv, hram, hrom, hpc, hmode, rfl, hrest⟩ := boot_fields h
  refine ⟨fun k hk => ?dram, fun k hk => ?rom, hpc, hmode, rfl, hrest⟩
  case dram => rw [byteAt_dram_offset hv hk, hram, Memory.readByte_image]
  case rom => rw [byteAt_rom_offset hv hk, hrom, Memory.readByte_image]

end Sys2Proof.Machine
end
